-- ==== Sys2Proof/Word.lean ====
section
/-! DEFINITION. The word types of the block and the named widths (00_scope.md R15, R16, R20, R21). All values are unsigned. -/

namespace Sys2Proof

/-- A byte: 8 bits, values 0..255 (R20). -/
abbrev Byte := BitVec 8

/-- A hexadecimal digit's value: 4 bits (R115). -/
abbrev Nibble := BitVec 4

/-- `CFG_W` (R16): the width of `ON_MS` and `OFF_MS`. -/
abbrev CFG_W : Nat := 16

/-- A value of the time counter, in milliseconds (R15). Its width `TIME_W` is a parameter of the device (`Params.timeW` in Config), so it is
held as its number; every sample is reduced modulo `2^TIME_W` when it is taken (log 1). -/
abbrev Time := Nat

/-- A configuration value in milliseconds, `CFG_W` bits (R16). -/
abbrev CfgWord := BitVec 16

/-- The index of one of the `N_CH = 8` channels (R5, R69). -/
abbrev Chan := Fin 8

end Sys2Proof
end

