-- ==== Sys2Proof/Config.lean ====
section
/-! DEFINITION. What an implementation fixes: the marker and address constants (R8, R9), the device's parameters (R12 to R19) with the
refusal of illegal sets (D30), and the free values (log 2, 3, 4, 5, 7). The remaining constants of R5 to R11 stand with the operations
that use them: `DATA_CAP` in Decode, `FRAME_TIMEOUT_MS` in Machine/Flags, `CFG_SCALE` in Machine/Operands, the offsets `NV_*` in
Machine/Ops. -/

namespace Sys2Proof

/-- `START_MARKER` (R8), the character `<`. -/
def START_MARKER : Byte := 0x3C

/-- `END_MARKER` (R8), the character `>`. -/
def END_MARKER : Byte := 0x3E

/-- `ADDR_SET_ON` (R9). -/
def ADDR_SET_ON : Byte := 255

/-- `ADDR_SET_OFF` (R9). -/
def ADDR_SET_OFF : Byte := 254

/-- A move of the environment between two steps (R23, R155, R166). -/
inductive EnvMove where
  /-- The next control cycle samples `now` and drains `rx` (R156, R158, R159). -/
  | cycle (now : Time) (rx : List Byte)
  /-- The power cycle RESET; the `INIT` that follows it samples `now`, which is `T_BOOT` (R157, R195). -/
  | reset (now : Time)
deriving DecidableEq, Repr, Inhabited

/-- The 255 bytes that are not `START_MARKER`, numbered in ascending order: what a `LINE_TERM` is made of (R17). -/
def notStart (k : Fin 255) : Byte :=
  if k.val < START_MARKER.toNat then BitVec.ofNat 8 k.val else BitVec.ofNat 8 (k.val + 1)

/-- A LEGAL parameter set of a device (R12 to R19): the constraints hold by the fields' types (log 2). -/
structure Params where
  /-- `OWN_ADDR` (R12), 0..253. -/
  ownAddr : Fin 254
  /-- `SENTINEL` (R13). -/
  sentinel : Byte
  /-- `DEFAULT_ON_MS` (R14). -/
  defaultOnMs : CfgWord
  /-- `DEFAULT_OFF_MS` (R14). -/
  defaultOffMs : CfgWord
  /-- `TIME_W - CFG_W` (R15): the counter is at least as wide as the configuration registers. -/
  timeExtra : Nat
  /-- The first byte of `LINE_TERM` (R17), which is not empty, by its number in `notStart`. -/
  lineTermHead : Fin 255
  /-- The other bytes of `LINE_TERM` (R17). -/
  lineTermTail : List (Fin 255)
  /-- `NV_SIZE - 4` (R18). -/
  nvExtra : Nat
  /-- `CYCLE_MAX_MS` (R19); no state transition uses it. -/
  cycleMaxMs : Nat
  /-- What each offset of the store holds before the block first writes it (R34, D21): any value per byte (log 3). -/
  nvFresh : Nat → Byte
deriving Inhabited

/-- `OWN_ADDR` as a byte (R12). -/
def Params.ownByte (p : Params) : Byte := BitVec.ofNat 8 p.ownAddr.val

/-- `TIME_W` (R15), at least `CFG_W`. -/
def Params.timeW (p : Params) : Nat := CFG_W + p.timeExtra

/-- The counter's range, `2^TIME_W` (R15). -/
def Params.timeMod (p : Params) : Nat := 2 ^ p.timeW

/-- `sub_TIME_W(a, b) = (a - b) mod 2^TIME_W` (R21, R160): exact in the integers, then narrowed. -/
def Params.subTime (p : Params) (a b : Time) : Time := (((a : Int) - (b : Int)) % (p.timeMod : Int)).toNat

/-- `LINE_TERM` (R17): not empty and without `START_MARKER`. -/
def Params.lineTerm (p : Params) : List Byte := (p.lineTermHead :: p.lineTermTail).map notStart

/-- `NV_SIZE` (R18), at least 4. -/
def Params.nvSize (p : Params) : Nat := p.nvExtra + 4

/-- A parameter set as somebody writes it down, legal or not. -/
structure RawParams where
  ownAddr : Nat
  sentinel : Byte
  defaultOnMs : Nat
  defaultOffMs : Nat
  timeW : Nat
  lineTerm : List Byte
  nvSize : Nat
  cycleMaxMs : Nat
deriving DecidableEq, Repr

/-- The number of a byte in `notStart`, none for the start marker. -/
def notStartIndex (b : Byte) : Option (Fin 255) :=
  if b.toNat < START_MARKER.toNat then some (Fin.ofNat 255 b.toNat)
  else if b = START_MARKER then none
  else some (Fin.ofNat 255 (b.toNat - 1))

/-- The numbers of a byte sequence, none where it holds a start marker. -/
def notStartIndices : List Byte → Option (List (Fin 255))
  | [] => some []
  | b :: bs =>
    match notStartIndex b, notStartIndices bs with
    | some k, some ks => some (k :: ks)
    | _, _ => none

/-- The parameter sets a model takes and those it refuses (D30; R12 to R18): none is the refusal. -/
def RawParams.accept (r : RawParams) (fresh : Nat → Byte) : Option Params :=
  if h : r.ownAddr < 254 then
    if CFG_W ≤ r.timeW ∧ r.defaultOnMs < 2 ^ CFG_W ∧ r.defaultOffMs < 2 ^ CFG_W ∧ 4 ≤ r.nvSize then
      match notStartIndices r.lineTerm with
      | some (k :: ks) =>
        some { ownAddr := ⟨r.ownAddr, h⟩, sentinel := r.sentinel, defaultOnMs := BitVec.ofNat 16 r.defaultOnMs,
               defaultOffMs := BitVec.ofNat 16 r.defaultOffMs, timeExtra := r.timeW - CFG_W, lineTermHead := k, lineTermTail := ks,
               nvExtra := r.nvSize - 4, cycleMaxMs := r.cycleMaxMs, nvFresh := fresh }
      | _ => none
    else none
  else none

namespace Config

/-- THE device's parameters and the first contents of its store (R12 to R19, R34): fixed while it runs, and nothing in Lean
knows them. DESIGN CHOICE (log 2, log 3). -/
opaque device : Params

/-- The contents of `BUF` after the power cycle of that number (R27, D4, U2): any value per byte. DESIGN CHOICE (log 4). -/
opaque bufAtPowerOn : Nat → Nat → Byte

/-- `T_BOOT` of the first boot (R158, R196): arbitrary. DESIGN CHOICE (log 5). -/
opaque bootTime : Time

/-- What the environment does of itself, where no move of its has been placed (R166). DESIGN CHOICE (log 7). -/
opaque envMove : Nat → EnvMove

end Config

end Sys2Proof
end

