-- ==== Sys2Proof/Syntax.lean ====
section
/-! DEFINITION. The operations of the block: one constructor per row of spec/opcode_table.json. The operand `now` of the spec's
signatures is not written here: it is the sample of the step in progress, `State.now` (log 6), which only CYCLE and INIT take. -/

namespace Sys2Proof

/-- The operations of the block. -/
inductive Instr where
  /-- `FD.START` (R101): the start marker, while LISTENING. -/
  | fdStart
  /-- `FD.SKIP` (R102): any other byte, while LISTENING. -/
  | fdSkip (b : Byte)
  /-- `FD.END` (R105): the end marker, while ACCUMULATING. -/
  | fdEnd
  /-- `FD.DATA` (R103): a byte other than the end marker, while ACCUMULATING, that fits. -/
  | fdData (b : Byte)
  /-- `FD.DROP` (R104): a byte other than the end marker, while ACCUMULATING, that does not fit. -/
  | fdDrop (b : Byte)
  /-- `FD.TIMEOUT` (R106): abandon a stalled frame. -/
  | fdTimeout
  /-- `SETON` (R122): wire form `<FFcc>`. -/
  | setOn (command : Byte)
  /-- `SETOFF` (R123): wire form `<FEcc>`. -/
  | setOff (command : Byte)
  /-- `CHMASK` (R124): wire form `<aamm>` with `aa` the device's own address. -/
  | chMask (command : Byte)
  /-- `PASS` (R125): a message for another device; neither field has an effect, both are kept so that no bit of the encoding is lost. -/
  | pass (address command : Byte)
  /-- `FD.RX` (R100): one received byte. -/
  | fdRx (b : Byte)
  /-- `HEXNIB` (R115): one character to a nibble. -/
  | hexNib (c : Byte)
  /-- `HEXBYTE` (R116): two characters to a byte, the high one first. -/
  | hexByte (c0 c1 : Byte)
  /-- `MSGDEC` (R120): the buffer's first four bytes to a message. -/
  | msgDec
  /-- `DISPATCH` (R121): decode, act, relay. -/
  | dispatch
  /-- `RELAY` (R126): re-emit the stored frame. -/
  | relay
  /-- `REQON` (R136): request channel `i` on. -/
  | reqOn (i : Chan)
  /-- `POLLEXP` (R137): expire the channels that are due. -/
  | pollExp
  /-- `CURMASK` (R138): push the mask of energized channels. -/
  | curMask
  /-- `NVRD` (R145, R52): read a byte of the non-volatile store. -/
  | nvRd (off : Nat)
  /-- `NVWR` (R145, R53): write a byte of the non-volatile store. -/
  | nvWr (off : Nat) (v : Byte)
  /-- `CFGLOAD` (R146): the boot load of the configuration. -/
  | cfgLoad
  /-- `CFGSAVE.ON` (R147): write the on-time through. -/
  | cfgSaveOn (command : Byte)
  /-- `CFGSAVE.OFF` (R148): write the minimum off-time through. -/
  | cfgSaveOff (command : Byte)
  /-- `CYCLE` (R156): one control cycle with its time sample and the bytes drained in it. -/
  | cycle (now : Time) (rx : List Byte)
  /-- `INIT` (R157): initialisation after RESET with its time sample, `T_BOOT`. -/
  | init (now : Time)
deriving DecidableEq, Repr

end Sys2Proof
end

