-- ==== Sys2Proof/WellFormed.lean ====
section
/-! DEFINITION. Which operands an operation may have on a device: the classes of R76 and R82, the offsets of R51, and time samples of
`TIME_W` bits (R15). -/

namespace Sys2Proof

/-- Whether `i`'s operands are ones that the spec gives this operation on a device with parameters `p`. -/
def wellFormed (p : Params) : Instr → Bool
  | .fdSkip b => b != START_MARKER
  | .fdData b => b != END_MARKER
  | .fdDrop b => b != END_MARKER
  | .pass address _ => address != ADDR_SET_ON && address != ADDR_SET_OFF && address != p.ownByte
  | .nvRd off => decide (off < p.nvSize)
  | .nvWr off _ => decide (off < p.nvSize)
  | .cycle now _ => decide (now < p.timeMod)
  | .init now => decide (now < p.timeMod)
  | .fdStart | .fdEnd | .fdTimeout | .setOn _ | .setOff _ | .chMask _ | .fdRx _ | .hexNib _ | .hexByte _ _ | .msgDec
  | .dispatch | .relay | .reqOn _ | .pollExp | .curMask | .cfgLoad | .cfgSaveOn _ | .cfgSaveOff _ => true

end Sys2Proof
end

