-- ==== Sys2Proof/Decode.lean ====
section
/-! DEFINITION. The HexCodec's two functions (R115, R116), the decode maps of a byte (R76), of a message (R82) and of an environment
move (R155), the decoding of a whole frame (R75, R79), and the encoder (R92). Every byte and every message decodes (R82, R83);
what can be refused is only a byte sequence that is no whole frame, by name. -/

namespace Sys2Proof

/-- `DATA_CAP` (R6): the `LEN` at which a byte other than the end marker is no longer stored. -/
def DATA_CAP : Nat := 31

/-- `HEXNIB` (R115). -/
def hexNib (c : Byte) : Nibble :=
  if 0x30 ≤ c ∧ c ≤ 0x39 then (c - 0x30).setWidth 4
  else if 0x41 ≤ c ∧ c ≤ 0x46 then (c - 0x41 + 10).setWidth 4
  else if 0x61 ≤ c ∧ c ≤ 0x66 then (c - 0x61 + 10).setWidth 4
  else 0

/-- `HEXBYTE` (R116): `16 * HEXNIB(c0) + HEXNIB(c1)`. -/
def hexByte (c0 c1 : Byte) : Byte := 16 * (hexNib c0).setWidth 8 + (hexNib c1).setWidth 8

/-- `hex` of R92: the upper-case ASCII digit of a nibble. -/
def hexDigit (v : Nibble) : Byte := if v < 10 then 0x30 + v.setWidth 8 else 0x41 + (v.setWidth 8 - 10)

/-- The two digits of a byte, the high one first (R92). -/
def hexDigits (b : Byte) : List Byte := [hexDigit (b.extractLsb' 4 4), hexDigit (b.extractLsb' 0 4)]

/-- The state of the frame decoder, `FD_STATE` (R26). -/
inductive FdState where
  /-- `LISTENING`: the next start marker opens a frame. -/
  | listening
  /-- `ACCUMULATING`: a frame is in progress. -/
  | accumulating
deriving DecidableEq, Repr

/-- The byte-level decode map (R76, R83): total. -/
def decodeByte (fd : FdState) (len : BitVec 6) (b : Byte) : Instr :=
  match fd with
  | .listening => if b = START_MARKER then .fdStart else .fdSkip b
  | .accumulating =>
    if b = END_MARKER then .fdEnd
    else if len.toNat < DATA_CAP then .fdData b
    else .fdDrop b

/-- The message-level decode map (R82), for a device of that own address: total. -/
def decodeMessage (own address command : Byte) : Instr :=
  if address = ADDR_SET_ON then .setOn command
  else if address = ADDR_SET_OFF then .setOff command
  else if address = own then .chMask command
  else .pass address command

/-- The command that four payload characters stand for (R79, R82). -/
def decodePayload (own c0 c1 c2 c3 : Byte) : Instr := decodeMessage own (hexByte c0 c1) (hexByte c2 c3)

/-- Why a byte sequence is not one whole frame whose command its own bytes decide. -/
inductive FrameError where
  /-- There is no byte. -/
  | noBytes
  /-- The first byte is not the start marker (such a byte is skipped, R89). -/
  | noStartMarker
  /-- There is no end marker (the frame would still be accumulating). -/
  | noEndMarker
  /-- Fewer than four payload characters: the command depends on stale buffer bytes (R86). -/
  | shortPayload
deriving DecidableEq, Repr

/-- The payload before the first end marker, and the bytes after it. -/
def splitAtEnd : List Byte → Option (List Byte × List Byte)
  | [] => none
  | b :: bs =>
    if b = END_MARKER then some ([], bs)
    else (splitAtEnd bs).map fun r => (b :: r.1, r.2)

/-- A whole frame at the head of a byte sequence (R77, R79): its command and the bytes after it, or why there is none. -/
def decodeFrame (own : Byte) : List Byte → Except FrameError (Instr × List Byte)
  | [] => .error .noBytes
  | b :: bs =>
    if b = START_MARKER then
      match splitAtEnd bs with
      | none => .error .noEndMarker
      | some (c0 :: c1 :: c2 :: c3 :: _, rest) => .ok (decodePayload own c0 c1 c2 c3, rest)
      | some _ => .error .shortPayload
    else .error .noStartMarker

/-- The step that an environment move selects (R155): a control cycle, or the INIT that follows a RESET. -/
def decodeMove : EnvMove → Instr
  | .cycle now rx => .cycle now rx
  | .reset now => .init now

/-- The canonical frame of a message (R75, R92). -/
def canonicalFrame (address command : Byte) : List Byte :=
  [START_MARKER] ++ hexDigits address ++ hexDigits command ++ [END_MARKER]

/-- The wire bytes of an operation that has an encoding (R76, R92); the rows of format TIME and INTERNAL have none (R83). -/
def encode (p : Params) : Instr → Option (List Byte)
  | .fdStart => some [START_MARKER]
  | .fdSkip b => some [b]
  | .fdEnd => some [END_MARKER]
  | .fdData b => some [b]
  | .fdDrop b => some [b]
  | .setOn command => some (canonicalFrame ADDR_SET_ON command)
  | .setOff command => some (canonicalFrame ADDR_SET_OFF command)
  | .chMask command => some (canonicalFrame p.ownByte command)
  | .pass address command => some (canonicalFrame address command)
  | .fdTimeout | .fdRx _ | .hexNib _ | .hexByte _ _ | .msgDec | .dispatch | .relay | .reqOn _ | .pollExp | .curMask | .nvRd _
  | .nvWr _ _ | .cfgLoad | .cfgSaveOn _ | .cfgSaveOff _ | .cycle _ _ | .init _ => none

/-- The decoder state in which a byte given without one is read (log 13): the end marker's row of the opcode table is in force while
ACCUMULATING; every other byte is read as after reset, LISTENING. -/
def tableFdState (b : Byte) : FdState := if b = END_MARKER then .accumulating else .listening

/-- The instruction that the decoder reads from a table word: 8 bits are one received byte (format B), 16 bits one message (format M,
`MSG[15:8]` the address), laid out as its canonical frame. Other lengths are no encoding of this block. -/
def decodeTableWord (nbits w : Nat) : Option Instr :=
  if nbits = 8 then some (decodeByte (tableFdState (BitVec.ofNat 8 w)) 0 (BitVec.ofNat 8 w))
  else if nbits = 16 then
    match decodeFrame Config.device.ownByte (canonicalFrame (BitVec.ofNat 8 (w / 256)) (BitVec.ofNat 8 w)) with
    | .ok (i, _) => some i
    | .error _ => none
  else none

end Sys2Proof
end

