-- ==== Sys2Proof/Machine/State.lean ====
section
/-! DEFINITION. The state of the block (10_state.md R25 to R36, R40 to R42), the model's own fields, the reasons a step can stop, and the
state after RESET and INIT (R45). -/

namespace Sys2Proof.Machine

/-- The contents of the non-volatile store (R34, R51): cells in rising order of offset, none of them equal to what an unlisted offset
reads as (`unlistedByte` in Machine/Ops.lean). -/
abbrev Memory := List Host.Cell

/-- The model's own (log 8): what a value-returning operation returned when it was last executed by itself. -/
inductive Ret where
  /-- No value-returning operation has been executed. -/
  | none
  /-- The result of HEXNIB (R115). -/
  | nibble (v : Nibble)
  /-- The result of HEXBYTE (R116) or NVRD (R52). -/
  | byte (v : Byte)
  /-- The result of MSGDEC, a DecodedMessage (R78, R120). -/
  | message (address command : Byte)
  /-- The result of CURMASK (R138). -/
  | mask (m : BitVec 8)
deriving DecidableEq, Repr

/-- The state of the block. -/
structure State where
  /-- `FD_STATE` (R26). -/
  fdState : FdState
  /-- `BUF[0..31]` (R27). -/
  buf : Vector Byte 32
  /-- `LEN` (R28), 6 bits. -/
  len : BitVec 6
  /-- `T_LAST_RX` (R29). -/
  tLastRx : Time
  /-- `CH_ON[0..7]` (R30). -/
  chOn : Vector Bool 8
  /-- `CH_T[0..7]` (R31). -/
  chT : Vector Time 8
  /-- `ON_MS` (R32). -/
  onMs : CfgWord
  /-- `OFF_MS` (R33). -/
  offMs : CfgWord
  /-- `OUT_MASK` (R36). -/
  outMask : BitVec 8
  /-- `NV[0..NV_SIZE-1]` (R34, R35). -/
  nv : Memory
  /-- `TX` (R40): all bytes emitted so far, oldest first. -/
  tx : List Byte
  /-- `now` (R42): the sample of the step in progress, or of the last one (log 6). -/
  now : Time
  /-- The model's own (log 7): the environment's coming moves that have been placed, the next one first; they hold `RX` (R41). -/
  pending : List EnvMove
  /-- The model's own (log 7): which free move of the environment comes next when none is placed. -/
  envIndex : Nat
  /-- The model's own (log 4): how many power cycles there have been; it selects the free contents of `BUF` after the next one. -/
  boots : Nat
  /-- The model's own (log 8): the value last returned. -/
  ret : Ret
deriving DecidableEq, Repr

/-- Why an operation stops with a fault. -/
inductive Fault where
  /-- Raised by NVRD and NVWR executed by themselves at an offset at or above `NV_SIZE`, which does not exist (R51; log 11). Safe: the
  block never does so, and no step raises it. -/
  | nvOffset
deriving DecidableEq, Repr

/-- Why an operation is refused. -/
inductive Refusal where
  /-- Raised by exec for an operation that has no meaning yet; no operation of this model is in that case. Safe. -/
  | notModelled (mnemonic : String)
deriving DecidableEq, Repr

/-- The outcome of an operation or a step. -/
abbrev Result := Host.Outcome State Fault Refusal

/-- The contents of `BUF` after the power cycle of that number (R27, R196): free values (log 4). -/
@[irreducible] def powerOnBuf (boot : Nat) : Vector Byte 32 := Vector.ofFn fun i => Config.bufAtPowerOn boot i.val

/-- The state right after the first RESET and its INIT (R45, R157, R197), at the free time `Config.bootTime` (log 5), with a store that the
block has never written (log 3) and free contents of `BUF` (log 4). -/
def State.reset : State where
  fdState := .listening
  buf := powerOnBuf 0
  len := 0
  tLastRx := Config.bootTime % Config.device.timeMod
  chOn := Vector.replicate 8 false
  chT := Vector.replicate 8 (Config.bootTime % Config.device.timeMod)
  onMs :=
    if Config.device.nvFresh 0 = Config.device.sentinel then (Config.device.nvFresh 1).setWidth 16 * 10
    else Config.device.defaultOnMs
  offMs :=
    if Config.device.nvFresh 2 = Config.device.sentinel then (Config.device.nvFresh 3).setWidth 16 * 10
    else Config.device.defaultOffMs
  outMask := 0
  nv := []
  tx := []
  now := Config.bootTime % Config.device.timeMod
  pending := []
  envIndex := 0
  boots := 1
  ret := .none

end Sys2Proof.Machine
end

