-- ==== Sys2Proof/Machine/Ops.lean ====
section
/-! DEFINITION. The named operations over the state: the primitives of 00_scope.md section 4.1 (MemRead, MemWrite, BufRead, TxEmit, register
writes), the RESET of R195, the taking of an environment move, and the abandoning of a frame, which is all that this block has of
taking an exception (R176); there is nothing to return from (R177). -/

namespace Sys2Proof.Machine

/-- `NV_ON_FLAG` (R11). -/
def NV_ON_FLAG : Nat := 0
/-- `NV_ON_VAL` (R11). -/
def NV_ON_VAL : Nat := 1
/-- `NV_OFF_FLAG` (R11). -/
def NV_OFF_FLAG : Nat := 2
/-- `NV_OFF_VAL` (R11). -/
def NV_OFF_VAL : Nat := 3

/-! ### The non-volatile store -/

/-- What an offset that no cell lists reads as: the byte the store held before the block's first write, any value (R34, R52; log 3). -/
def unlistedByte (p : Params) (off : Nat) : Byte := p.nvFresh off

/-- The byte of the store at `off` (R52). -/
def Memory.read (p : Params) : Memory → Nat → Byte
  | [], off => unlistedByte p off
  | (k, v) :: m, off => if k = off then v else Memory.read p m off

/-- The store after a write of `v` at `off` (R53), in canonical form. -/
def Memory.write (p : Params) : Memory → Nat → Byte → Memory
  | [], off, v => if v = unlistedByte p off then [] else [(off, v)]
  | (k, w) :: m, off, v =>
    if off < k then (if v = unlistedByte p off then (k, w) :: m else (off, v) :: (k, w) :: m)
    else if off = k then (if v = unlistedByte p off then m else (off, v) :: m)
    else (k, w) :: Memory.write p m off v

/-- Whether the cells' offsets rise strictly from `low` on, lie below `NV_SIZE`, and no cell equals what its offset reads as unlisted. -/
def Memory.wfFrom (p : Params) : Nat → Memory → Bool
  | _, [] => true
  | low, (k, v) :: m => decide (low ≤ k) && decide (k < p.nvSize) && decide (v ≠ unlistedByte p k) && Memory.wfFrom p (k + 1) m

/-- The canonical form of the store's contents. -/
def Memory.wf (p : Params) (m : Memory) : Bool := Memory.wfFrom p 0 m

/-- `MemRead(off, 1)` (R52). -/
def State.memRead (p : Params) (s : State) (off : Nat) : Byte := Memory.read p s.nv off

/-- `MemWrite(off, 1, v)` (R53). -/
def State.memWrite (p : Params) (off : Nat) (v : Byte) (s : State) : State := { s with nv := Memory.write p s.nv off v }

/-! ### The frame buffer -/

/-- `BufRead(i)` (R56): the byte physically there, whatever `LEN` is. -/
def State.bufRead (s : State) (i : Fin 32) : Byte := s.buf[i]

/-- The first `LEN` bytes of the buffer, `BUF[0 .. LEN-1]` (R126). -/
def State.frame (s : State) : List Byte := s.buf.toList.take s.len.toNat

/-- The buffer with `b` at index `len`, where there is such a place (R55). -/
def bufPut (buf : Vector Byte 32) (len : BitVec 6) (b : Byte) : Vector Byte 32 :=
  if h : len.toNat < 32 then buf.set len.toNat b h else buf

/-- `LEN` after a byte has been stored (R37): one more, unless the buffer had no place for it. -/
def lenNext (len : BitVec 6) : BitVec 6 := if len.toNat < 32 then len + 1 else len

/-- Store one byte: `BUF[LEN] <- b; LEN <- LEN + 1` (R55, R103, R105). A byte that cannot be stored is dropped (R55; log 10). -/
def State.storeByte (b : Byte) (s : State) : State := { s with buf := bufPut s.buf s.len b, len := lenNext s.len }

/-! ### Register writes -/

/-- `FD_STATE <- fd`, the block's only control transfer (R26). -/
def State.setFd (fd : FdState) (s : State) : State := { s with fdState := fd }

/-- `LEN <- 0` (R28): no byte of the buffer is erased (D3). -/
def State.clearLen (s : State) : State := { s with len := 0 }

/-- `T_LAST_RX <- now` (R29). -/
def State.stampRx (s : State) : State := { s with tLastRx := s.now }

/-- The sample of `now` that a step takes (R42): the counter is `TIME_W` bits wide, more bits than that are not seen (R15). -/
def State.sample (p : Params) (now : Time) (s : State) : State := { s with now := now % p.timeMod }

/-- A transition of channel `i`: `CH_ON[i] <- on; CH_T[i] <- now` (R31). -/
def State.setChannel (i : Chan) (on : Bool) (s : State) : State :=
  { s with chOn := s.chOn.set i.val on i.isLt, chT := s.chT.set i.val s.now i.isLt }

/-- `ON_MS <- v` (R32). -/
def State.setOnMs (v : CfgWord) (s : State) : State := { s with onMs := v }

/-- `OFF_MS <- v` (R33). -/
def State.setOffMs (v : CfgWord) (s : State) : State := { s with offMs := v }

/-- `OUT_MASK <- m` (R36): what the actuator driver is given (R186). -/
def State.setOutMask (m : BitVec 8) (s : State) : State := { s with outMask := m }

/-- `TxEmit(seq)` (R40). -/
def State.emit (seq : List Byte) (s : State) : State := { s with tx := s.tx ++ seq }

/-- The value that an operation executed by itself returns (log 8). -/
def State.setRet (r : Ret) (s : State) : State := { s with ret := r }

/-- All channels off, with the present sample as their timestamps (R157). -/
def State.clearChannels (s : State) : State :=
  { s with chOn := Vector.replicate 8 false, chT := Vector.replicate 8 s.now }

/-! ### The timeout reset, RESET, and the environment's moves -/

/-- The timeout reset `LEN <- 0; FD_STATE <- LISTENING` (R106, R176): the nearest the block has to taking an exception. Nothing is saved,
and there is no return from it (R177). -/
def State.abandonFrame (s : State) : State := s.clearLen.setFd .listening

/-- RESET (R195): the volatile state is lost. Of it only the buffer is not set by the INIT that follows, so its contents become free values
(R27, R157; log 4). The store and what was emitted stay. -/
def State.powerCycle (s : State) : State :=
  { s with buf := powerOnBuf s.boots, boots := s.boots + 1 }

/-- The environment's next move (R166): the first one placed, or a free one (log 7). -/
def State.nextMove (s : State) : EnvMove :=
  match s.pending with
  | [] => Config.envMove s.envIndex
  | m :: _ => m

/-- The state once the environment's next move has been taken. -/
def State.takeMove (s : State) : State :=
  match s.pending with
  | [] => { s with envIndex := s.envIndex + 1 }
  | _ :: rest => { s with pending := rest }

/-- What precedes the operation of a step (R155): the move is taken, and where it is a power cycle, RESET happens. -/
def State.beforeStep (s : State) : State :=
  match s.nextMove with
  | .cycle _ _ => s.takeMove
  | .reset _ => s.takeMove.powerCycle

/-- Put a move in front of those that are placed. -/
def State.placeMove (m : EnvMove) (s : State) : State := { s with pending := m :: s.pending }

/-- The byte `b` as the only input of the next cycle, at the present time, with the decoder in the state in which that byte is the one
that the opcode table's row describes (log 13): LISTENING, or for the end marker ACCUMULATING with nothing stored yet. -/
def State.withByte (b : Byte) (s : State) : State :=
  match tableFdState b, s.fdState with
  | .accumulating, .listening => ((s.clearLen.setFd .accumulating).stampRx).placeMove (.cycle s.now [b])
  | .accumulating, .accumulating => s.stampRx.placeMove (.cycle s.now [b])
  | .listening, _ => (s.setFd .listening).placeMove (.cycle s.now [b])

/-- The canonical frame of a message as the only input of the next cycle, at the present time, with the decoder LISTENING (log 13). -/
def State.withMessage (address command : Byte) (s : State) : State :=
  (s.setFd .listening).placeMove (.cycle s.now (canonicalFrame address command))

end Sys2Proof.Machine
end

