-- ==== Sys2Proof/Machine/Operands.lean ====
section
/-! DEFINITION. The operand forms: the fields of a message (R79), the scaled configuration operand (R80), the request mask (R81), and the
mask of energized channels (R138). -/

namespace Sys2Proof.Machine

/-- `CFG_SCALE` (R10): a configuration byte counts hundredths of a second, the registers hold milliseconds. -/
def CFG_SCALE : CfgWord := 10

/-- `zext_CFG_W(command) * 10` (R80, R160): 0..2550, no overflow. -/
def scaleCfg (command : Byte) : CfgWord := command.setWidth 16 * CFG_SCALE

/-- `zext_TIME_W(v)` (R21): exact, since `TIME_W >= CFG_W` (R15). -/
def zextTime (v : CfgWord) : Time := v.toNat

/-- The address field of the buffered message: `HEXBYTE(BufRead(0), BufRead(1))` (R79). -/
def State.msgAddress (s : State) : Byte := hexByte (s.bufRead 0) (s.bufRead 1)

/-- The command field of the buffered message: `HEXBYTE(BufRead(2), BufRead(3))` (R79). -/
def State.msgCommand (s : State) : Byte := hexByte (s.bufRead 2) (s.bufRead 3)

/-- The channels in ascending order, `for i in 0..7` (R69). -/
def channels : List Chan := [0, 1, 2, 3, 4, 5, 6, 7]

/-- Bit `i` of a request mask: channel `i` is requested on (R58, R81). -/
def requested (command : Byte) (i : Chan) : Bool := command.getLsbD i.val

/-- Bit `i` alone where `on`, else nothing. -/
def maskBit (on : Bool) (i : Chan) : BitVec 8 := if on then (1 : BitVec 8) <<< i.val else 0

/-- The mask whose bit `i` is `CH_ON[i]` (R138). -/
def maskOf (chOn : Vector Bool 8) : BitVec 8 := channels.foldl (fun m i => m ||| maskBit chOn[i] i) 0

end Sys2Proof.Machine
end

