-- ==== Sys2Proof/Machine/Flags.lean ====
section
/-! DEFINITION. The block has no condition codes (R38). These are the one-bit tests that its operations make: the three timers of R182 on
wrapped elapsed times (R160), and the two persisted sentinel comparisons (R35). -/

namespace Sys2Proof.Machine

/-- `FRAME_TIMEOUT_MS` (R7). -/
def FRAME_TIMEOUT_MS : Nat := 1000

/-- `sub_TIME_W(now, t)` (R21): the wrapping unsigned difference. -/
def State.elapsed (p : Params) (s : State) (t : Time) : Time := p.subTime s.now t

/-- The frame-abandon timer has run out (R106): strict, and only while ACCUMULATING. -/
def State.timeoutDue (p : Params) (s : State) : Bool :=
  s.fdState == .accumulating && decide (s.elapsed p s.tLastRx > FRAME_TIMEOUT_MS)

/-- A request for channel `i` is accepted (R136): the channel is off and its debounce window has passed, not strict. -/
def State.requestAccepted (p : Params) (s : State) (i : Chan) : Bool :=
  !s.chOn[i] && decide (s.elapsed p s.chT[i] ≥ zextTime s.offMs)

/-- Channel `i` is due to expire (R137): on, and on for more than `ON_MS`, strict. -/
def State.expiryDue (p : Params) (s : State) (i : Chan) : Bool :=
  s.chOn[i] && decide (s.elapsed p s.chT[i] > zextTime s.onMs)

/-- `NV[0] == SENTINEL` (R35). -/
def State.onFlagSet (p : Params) (s : State) : Bool := s.memRead p NV_ON_FLAG == p.sentinel

/-- `NV[2] == SENTINEL` (R35). -/
def State.offFlagSet (p : Params) (s : State) : Bool := s.memRead p NV_OFF_FLAG == p.sentinel

end Sys2Proof.Machine
end

