-- ==== Sys2Proof/Machine/Channels.lean ====
section
/-! DEFINITION. The ChannelTimingEngine operations (43_channel_timing.md). -/

namespace Sys2Proof.Machine

/-- `REQON(i)` (R136): Off to On where the request is accepted, else nothing. -/
def reqOn (p : Params) (i : Chan) (s : State) : State := if s.requestAccepted p i then s.setChannel i true else s

/-- One lane of POLLEXP (R137, R139). -/
def expire (p : Params) (i : Chan) (s : State) : State := if s.expiryDue p i then s.setChannel i false else s

/-- `POLLEXP` (R137). -/
def pollExp (p : Params) (s : State) : State := channels.foldl (fun s i => expire p i s) s

/-- `CURMASK` (R138), the push of the mask. -/
def curMask (s : State) : State := s.setOutMask (maskOf s.chOn)

/-- `REQON` (R136) on the device. -/
def execReqOn (i : Chan) (s : State) : Result := .next (reqOn Config.device i s)

/-- `POLLEXP` (R137) on the device. -/
def execPollExp (s : State) : Result := .next (pollExp Config.device s)

/-- `CURMASK` (R138) on the device; executed by itself, the mask is also the value returned (log 8). -/
def execCurMask (s : State) : Result := .next ((curMask s).setRet (.mask (maskOf s.chOn)))

end Sys2Proof.Machine
end

