-- ==== Sys2Proof/Machine/ConfigStore.lean ====
section
/-! DEFINITION. The ConfigStore operations (44_config_store.md). -/

namespace Sys2Proof.Machine

/-- `CFGLOAD` (R146): each field from the store where its flag is set, else its default; the store is not written. -/
def cfgLoad (p : Params) (s : State) : State :=
  (s.setOnMs (if s.onFlagSet p then scaleCfg (s.memRead p NV_ON_VAL) else p.defaultOnMs)).setOffMs
    (if s.offFlagSet p then scaleCfg (s.memRead p NV_OFF_VAL) else p.defaultOffMs)

/-- `CFGSAVE.ON` (R147): the flag, then the unscaled value. -/
def cfgSaveOn (p : Params) (command : Byte) (s : State) : State :=
  (s.memWrite p NV_ON_FLAG p.sentinel).memWrite p NV_ON_VAL command

/-- `CFGSAVE.OFF` (R148): as CFGSAVE.ON, at the off-time offsets. -/
def cfgSaveOff (p : Params) (command : Byte) (s : State) : State :=
  (s.memWrite p NV_OFF_FLAG p.sentinel).memWrite p NV_OFF_VAL command

/-- `NVRD` (R145, R52). An offset at or above `NV_SIZE` does not exist (R51; log 11). -/
def execNvRd (off : Nat) (s : State) : Result :=
  if off < Config.device.nvSize then .next (s.setRet (.byte (s.memRead Config.device off))) else .fault .nvOffset

/-- `NVWR` (R145, R53). An offset at or above `NV_SIZE` does not exist (R51; log 11). -/
def execNvWr (off : Nat) (v : Byte) (s : State) : Result :=
  if off < Config.device.nvSize then .next (s.memWrite Config.device off v) else .fault .nvOffset

/-- `CFGLOAD` (R146) on the device. -/
def execCfgLoad (s : State) : Result := .next (cfgLoad Config.device s)

/-- `CFGSAVE.ON` (R147) on the device. -/
def execCfgSaveOn (command : Byte) (s : State) : Result := .next (cfgSaveOn Config.device command s)

/-- `CFGSAVE.OFF` (R148) on the device. -/
def execCfgSaveOff (command : Byte) (s : State) : Result := .next (cfgSaveOff Config.device command s)

end Sys2Proof.Machine
end

