-- ==== Sys2Proof/Machine/Messages.lean ====
section
/-! DEFINITION. The MessageDispatcher and BusRelay operations (42_dispatcher_relay.md). -/

namespace Sys2Proof.Machine

/-- `SETON` (R122). -/
def setOn (p : Params) (command : Byte) (s : State) : State := cfgSaveOn p command (s.setOnMs (scaleCfg command))

/-- `SETOFF` (R123). -/
def setOff (p : Params) (command : Byte) (s : State) : State := cfgSaveOff p command (s.setOffMs (scaleCfg command))

/-- `CHMASK` (R124): one request for each set bit, in ascending order. -/
def chMask (p : Params) (command : Byte) (s : State) : State :=
  channels.foldl (fun s i => if requested command i then reqOn p i s else s) s

/-- `RELAY` (R126): the start marker is created again, the stored bytes follow, then the line terminator. -/
def relay (p : Params) (s : State) : State := s.emit ([START_MARKER] ++ s.frame ++ p.lineTerm)

/-- The action of DISPATCH (R121): three tests of the decoded address, each by itself; where none holds, PASS. -/
def route (p : Params) (address command : Byte) (s : State) : State :=
  let s := if address = ADDR_SET_ON then setOn p command s else s
  let s := if address = ADDR_SET_OFF then setOff p command s else s
  if address = p.ownByte then chMask p command s else s

/-- `DISPATCH` (R121): decode, act, relay. -/
def dispatch (p : Params) (s : State) : State := relay p (route p s.msgAddress s.msgCommand s)

/-- `SETON` (R122) on the device. -/
def execSetOn (command : Byte) (s : State) : Result := .next (setOn Config.device command s)

/-- `SETOFF` (R123) on the device. -/
def execSetOff (command : Byte) (s : State) : Result := .next (setOff Config.device command s)

/-- `CHMASK` (R124) on the device. -/
def execChMask (command : Byte) (s : State) : Result := .next (chMask Config.device command s)

/-- `PASS` (R125): no state change. -/
def execPass (_address _command : Byte) (s : State) : Result := .next s

/-- `MSGDEC` (R120): executed by itself, the message is the value returned (log 8). -/
def execMsgDec (s : State) : Result := .next (s.setRet (.message s.msgAddress s.msgCommand))

/-- `DISPATCH` (R121) on the device. -/
def execDispatch (s : State) : Result := .next (dispatch Config.device s)

/-- `RELAY` (R126) on the device. -/
def execRelay (s : State) : Result := .next (relay Config.device s)

end Sys2Proof.Machine
end

