-- ==== Sys2Proof/Machine/FrameDecoder.lean ====
section
/-! DEFINITION. The FrameDecoder operations (40_frame_decoder.md). -/

namespace Sys2Proof.Machine

/-- `FD.START` (R101). -/
def fdStart (s : State) : State := (s.clearLen.setFd .accumulating).stampRx

/-- `FD.SKIP` (R102): only the time of the byte is kept. -/
def fdSkip (_b : Byte) (s : State) : State := s.stampRx

/-- `FD.DATA` (R103). At `LEN >= DATA_CAP`, outside its precondition, the byte is dropped (R55; log 10). -/
def fdData (b : Byte) (s : State) : State := if s.len.toNat < DATA_CAP then (s.storeByte b).stampRx else s.stampRx

/-- `FD.DROP` (R104): only the time of the byte is kept. -/
def fdDrop (_b : Byte) (s : State) : State := s.stampRx

/-- `FD.END` (R105): store the end marker, listen again, dispatch the frame. -/
def fdEnd (p : Params) (s : State) : State := dispatch p (((s.storeByte END_MARKER).stampRx).setFd .listening)

/-- `FD.RX` (R100): the operation that the byte and `FD_STATE` select. -/
def fdRx (p : Params) (b : Byte) (s : State) : State :=
  match s.fdState with
  | .listening => if b = START_MARKER then fdStart s else fdSkip b s
  | .accumulating =>
    if b = END_MARKER then fdEnd p s
    else if s.len.toNat < DATA_CAP then fdData b s
    else fdDrop b s

/-- `FD.TIMEOUT` (R106). -/
def fdTimeout (p : Params) (s : State) : State := if s.timeoutDue p then s.abandonFrame else s

/-- `FD.START` (R101) on the device. -/
def execFdStart (s : State) : Result := .next (fdStart s)

/-- `FD.SKIP` (R102) on the device. -/
def execFdSkip (b : Byte) (s : State) : Result := .next (fdSkip b s)

/-- `FD.END` (R105) on the device. -/
def execFdEnd (s : State) : Result := .next (fdEnd Config.device s)

/-- `FD.DATA` (R103) on the device. -/
def execFdData (b : Byte) (s : State) : Result := .next (fdData b s)

/-- `FD.DROP` (R104) on the device. -/
def execFdDrop (b : Byte) (s : State) : Result := .next (fdDrop b s)

/-- `FD.RX` (R100) on the device. -/
def execFdRx (b : Byte) (s : State) : Result := .next (fdRx Config.device b s)

/-- `FD.TIMEOUT` (R106) on the device. -/
def execFdTimeout (s : State) : Result := .next (fdTimeout Config.device s)

end Sys2Proof.Machine
end

