-- ==== Sys2Proof/Machine/ControlCycle.lean ====
section
/-! DEFINITION. The control cycle and the initialisation (45_control_cycle.md). -/

namespace Sys2Proof.Machine

/-- The bytes of a cycle in arrival order (R156). -/
def drain (p : Params) (rx : List Byte) (s : State) : State := rx.foldl (fun s b => fdRx p b s) s

/-- `CYCLE(now, rx)` (R156): the timeout, the bytes, the expiry, the mask, all at one sample of `now`. -/
def cycle (p : Params) (now : Time) (rx : List Byte) (s : State) : State :=
  curMask (pollExp p (drain p rx (fdTimeout p (s.sample p now))))

/-- `INIT(now)` (R157): `BUF`, `NV` and `TX` are not written. -/
def init (p : Params) (now : Time) (s : State) : State :=
  (cfgLoad p ((((s.sample p now).setFd .listening).clearLen).stampRx.clearChannels)).setOutMask 0

/-- `CYCLE` (R156) on the device. -/
def execCycle (now : Time) (rx : List Byte) (s : State) : Result := .next (cycle Config.device now rx s)

/-- `INIT` (R157) on the device. -/
def execInit (now : Time) (s : State) : Result := .next (init Config.device now s)

end Sys2Proof.Machine
end

