-- ==== Sys2Proof/Machine/HexCodec.lean ====
section
/-! DEFINITION. The HexCodec operations (41_hex_codec.md). Both are pure functions (`hexNib`, `hexByte` in Decode); executed by themselves
they change nothing but the value returned (log 8). -/

namespace Sys2Proof.Machine

/-- `HEXNIB` (R115). -/
def execHexNib (c : Byte) (s : State) : Result := .next (s.setRet (.nibble (hexNib c)))

/-- `HEXBYTE` (R116). -/
def execHexByte (c0 c1 : Byte) (s : State) : Result := .next (s.setRet (.byte (hexByte c0 c1)))

end Sys2Proof.Machine
end

