-- ==== Sys2Proof/Machine/Dispatch.lean ====
section
/-! DEFINITION. The dispatch of an operation to its meaning: one arm per row of spec/opcode_table.json. -/

namespace Sys2Proof.Machine

/-- Execute one operation. -/
def exec (i : Instr) (s : State) : Host.Outcome State Fault Refusal :=
  match i with
  | .fdStart => Sys2Proof.Machine.execFdStart s
  | .fdSkip b => Sys2Proof.Machine.execFdSkip b s
  | .fdEnd => Sys2Proof.Machine.execFdEnd s
  | .fdData b => Sys2Proof.Machine.execFdData b s
  | .fdDrop b => Sys2Proof.Machine.execFdDrop b s
  | .fdTimeout => Sys2Proof.Machine.execFdTimeout s
  | .setOn command => Sys2Proof.Machine.execSetOn command s
  | .setOff command => Sys2Proof.Machine.execSetOff command s
  | .chMask command => Sys2Proof.Machine.execChMask command s
  | .pass address command => Sys2Proof.Machine.execPass address command s
  | .fdRx b => Sys2Proof.Machine.execFdRx b s
  | .hexNib c => Sys2Proof.Machine.execHexNib c s
  | .hexByte c0 c1 => Sys2Proof.Machine.execHexByte c0 c1 s
  | .msgDec => Sys2Proof.Machine.execMsgDec s
  | .dispatch => Sys2Proof.Machine.execDispatch s
  | .relay => Sys2Proof.Machine.execRelay s
  | .reqOn ch => Sys2Proof.Machine.execReqOn ch s
  | .pollExp => Sys2Proof.Machine.execPollExp s
  | .curMask => Sys2Proof.Machine.execCurMask s
  | .nvRd off => Sys2Proof.Machine.execNvRd off s
  | .nvWr off v => Sys2Proof.Machine.execNvWr off v s
  | .cfgLoad => Sys2Proof.Machine.execCfgLoad s
  | .cfgSaveOn command => Sys2Proof.Machine.execCfgSaveOn command s
  | .cfgSaveOff command => Sys2Proof.Machine.execCfgSaveOff command s
  | .cycle now rx => Sys2Proof.Machine.execCycle now rx s
  | .init now => Sys2Proof.Machine.execInit now s

end Sys2Proof.Machine
end

