-- ==== Sys2Proof/Machine/Step.lean ====
section
/-! DEFINITION. The step (R155): the environment's next move selects a control cycle, or RESET followed by INIT. -/

namespace Sys2Proof.Machine

/-- One step of the machine. -/
def step (s : State) : Host.Outcome State Fault Refusal := exec (decodeMove s.nextMove) s.beforeStep

/-- The instruction whose bits are `w` placed so that the next step receives and runs it (log 13): one byte, or the canonical frame of a
message; other lengths encode nothing. -/
def State.withFetchWord (s : State) (nbits w : Nat) : State :=
  if nbits = 8 then s.withByte (BitVec.ofNat 8 w)
  else if nbits = 16 then s.withMessage (BitVec.ofNat 8 (w / 256)) (BitVec.ofNat 8 w)
  else s

end Sys2Proof.Machine
end

