-- ==== Sys2Proof/Safety.lean ====
section
/-! DEFINITION. The terms in which the statements speak: elapsed time as a number (R21), the invariants (R39, R149), running operations
and moves in sequence, and what a gap between bytes is (R108). -/

namespace Sys2Proof.Machine

/-- What the device's counter of `TIME_W` bits shows of a time (R15, R42). -/
def sampleOf (now : Time) : Time := now % 2 ^ Config.device.timeW

/-- `sub_TIME_W(now, t)` as a number of milliseconds (R21, R160): `(now - t) mod 2^TIME_W`, in the natural numbers. -/
def elapsedMs (now t : Time) : Nat :=
  (sampleOf now + (2 ^ Config.device.timeW - sampleOf t)) % 2 ^ Config.device.timeW

/-- The byte of the device's store at an offset (R52). -/
def State.nvByte (s : State) (off : Nat) : Byte := s.memRead Config.device off

/-- The invariants of R39, and the canonical form of the store. -/
structure State.Inv (s : State) : Prop where
  /-- R39 (a). -/
  len_le : s.len.toNat ≤ 32
  /-- R39 (b). -/
  accumulating_len : s.fdState = .accumulating → s.len.toNat ≤ 31
  /-- R39 (c). -/
  full_frame : s.len.toNat = 32 → s.fdState = .listening ∧ s.buf[31] = END_MARKER
  /-- R39 (d). -/
  no_end_stored : s.fdState = .accumulating → ∀ i : Fin 32, i.val < s.len.toNat → s.buf[i] ≠ END_MARKER
  /-- R39 (e). -/
  mask_is_channels : ∀ i : Chan, s.outMask.getLsbD i.val = s.chOn[i]
  /-- The sample, `T_LAST_RX` and every `CH_T` are values of `TIME_W` bits (R15, R29, R31, R42). -/
  times_fit : s.now < 2 ^ Config.device.timeW ∧ s.tLastRx < 2 ^ Config.device.timeW ∧
    ∀ i : Chan, s.chT[i] < 2 ^ Config.device.timeW
  /-- The store's contents are in canonical form. -/
  nv_wf : Memory.wf Config.device s.nv = true

/-- The configuration registers hold what a boot load would load now (R146, R149). -/
structure State.ConfigMatchesStore (s : State) : Prop where
  onMs_eq : s.onMs.toNat =
    if s.nvByte 0 = Config.device.sentinel then 10 * (s.nvByte 1).toNat else Config.device.defaultOnMs.toNat
  offMs_eq : s.offMs.toNat =
    if s.nvByte 2 = Config.device.sentinel then 10 * (s.nvByte 3).toNat else Config.device.defaultOffMs.toNat

/-- The bytes of a frame with that payload (R77). -/
def wireFrame (payload : List Byte) : List Byte := [START_MARKER] ++ payload ++ [END_MARKER]

/-- Operations executed one after the other, stopping at the first that does not answer a next state. -/
def runAll : List Instr → State → Result
  | [], s => .next s
  | i :: is, s =>
    match exec i s with
    | .next t => runAll is t
    | .fault r => .fault r
    | .refused r => .refused r

/-- `k` steps of the machine, the first of them with the environment's moves `ms` (R166). -/
def runMoves (k : Nat) (ms : List EnvMove) (s : State) : Result :=
  Host.Core.run Sys2Proof.core k ({ s with pending := ms } : State)

/-- Control cycles as environment moves. -/
def asMoves (cycles : List (Time × List Byte)) : List EnvMove := cycles.map fun c => .cycle c.1 c.2

/-- No gap between received bytes is longer than the frame timeout (R108), as the cycles of a sequence see it: at each cycle at most
1000 ms have passed since the cycle that delivered the last byte, which was at `last`. -/
def gapsShort (last : Time) : List (Time × List Byte) → Prop
  | [] => True
  | (now, rx) :: rest => elapsedMs now last ≤ 1000 ∧ gapsShort (if rx = [] then last else now) rest

end Sys2Proof.Machine
end

