-- ==== Sys2Proof/Certificates/Slice0/Obligations.lean ====
section
/-! DEFINITION. The statements for the provers. Each docstring names the rule of spec/ that it formalises. A frame is said by an equation
`t = { s with … }`: every field not named is unchanged, the store among them; where an operation stores, every byte is read. -/

open Sys2Proof Sys2Proof.Machine

/-! ### FrameDecoder -/

/-- R101: FD.START empties the buffer's length, opens a frame and keeps the time; nothing else changes. The byte `0x3C` while LISTENING
selects it. -/
def Obligations.FdStartOpensAnEmptyFrame : Prop :=
  ∀ s : State,
    exec .fdStart s = .next { s with len := 0, fdState := .accumulating, tLastRx := s.now } ∧
    (s.fdState = .listening → exec (.fdRx START_MARKER) s = exec .fdStart s)

/-- R102: FD.SKIP keeps the time of the byte, nothing else. Any byte but `0x3C` while LISTENING selects it. -/
def Obligations.FdSkipKeepsOnlyTheTime : Prop :=
  ∀ (b : Byte) (s : State),
    exec (.fdSkip b) s = .next { s with tLastRx := s.now } ∧
    (s.fdState = .listening → b ≠ START_MARKER → exec (.fdRx b) s = exec (.fdSkip b) s)

/-- R103: FD.DATA stores its byte at `LEN`, adds one to `LEN` and keeps the time. Any byte but `0x3E` while ACCUMULATING with `LEN < 31`
selects it. -/
def Obligations.FdDataStoresOneByte : Prop :=
  ∀ (b : Byte) (s : State), s.len.toNat ≤ 30 →
    (∃ t : State, exec (.fdData b) s = .next t ∧ t = { s with buf := t.buf, len := t.len, tLastRx := s.now } ∧
      t.len.toNat = s.len.toNat + 1 ∧
      ∀ i : Fin 32, t.buf[i] = if i.val = s.len.toNat then b else s.buf[i]) ∧
    (s.fdState = .accumulating → b ≠ END_MARKER → exec (.fdRx b) s = exec (.fdData b) s)

/-- R104: FD.DROP keeps the time of the byte, nothing else. Any byte but `0x3E` while ACCUMULATING with `LEN = 31` selects it. -/
def Obligations.FdDropKeepsOnlyTheTime : Prop :=
  ∀ (b : Byte) (s : State),
    exec (.fdDrop b) s = .next { s with tLastRx := s.now } ∧
    (s.fdState = .accumulating → b ≠ END_MARKER → s.len.toNat = 31 → exec (.fdRx b) s = exec (.fdDrop b) s)

/-- R105: FD.END stores the end marker at `LEN`, adds one to `LEN`, keeps the time, listens again and then does what DISPATCH does in that
state. The byte `0x3E` while ACCUMULATING selects it. -/
def Obligations.FdEndStoresMarkerAndDispatches : Prop :=
  ∀ s : State, s.len.toNat ≤ 31 →
    (∃ u t : State, exec .fdEnd s = .next t ∧ exec .dispatch u = .next t ∧
      u = { s with buf := u.buf, len := u.len, tLastRx := s.now, fdState := .listening } ∧
      u.len.toNat = s.len.toNat + 1 ∧
      ∀ i : Fin 32, u.buf[i] = if i.val = s.len.toNat then END_MARKER else s.buf[i]) ∧
    (s.fdState = .accumulating → exec (.fdRx END_MARKER) s = exec .fdEnd s)

/-- THE MODEL'S CHOICE (log 10), in states that no run reaches: at `LEN >= 31` FD.DATA drops its byte, at `LEN >= 32` FD.END drops the
marker and still dispatches (R55: a byte that cannot be stored is dropped). -/
def Obligations.BytesWithoutAPlaceAreDropped : Prop :=
  (∀ (b : Byte) (s : State), 31 ≤ s.len.toNat → exec (.fdData b) s = .next { s with tLastRx := s.now }) ∧
  (∀ s : State, 32 ≤ s.len.toNat →
    ∃ t : State, exec .fdEnd s = .next t ∧
      exec .dispatch { s with tLastRx := s.now, fdState := .listening } = .next t)

/-- R106: FD.TIMEOUT abandons the frame in progress exactly where more than 1000 ms have passed, in wrapped unsigned time, since the last
byte; otherwise, and while LISTENING, it changes nothing. -/
def Obligations.FdTimeoutAbandonsAStalledFrame : Prop :=
  ∀ s : State, exec .fdTimeout s =
    .next (if s.fdState = .accumulating ∧ elapsedMs s.now s.tLastRx > 1000 then { s with len := 0, fdState := .listening } else s)

/-- R100: FD.RX does what the operation does that the byte-level table of R76 selects, and answers a next state. It does not test the
timeout itself: FD.TIMEOUT before it makes a byte that comes too late meet LISTENING. -/
def Obligations.FdRxRunsTheSelectedOperation : Prop :=
  ∀ (b : Byte) (s : State),
    (∃ t : State, exec (.fdRx b) s = .next t) ∧
    exec (.fdRx b) s = exec (decodeByte s.fdState s.len b) s ∧
    (decodeByte s.fdState s.len b =
      if s.fdState = .listening then (if b = START_MARKER then .fdStart else .fdSkip b)
      else if b = END_MARKER then .fdEnd else if s.len.toNat < 31 then .fdData b else .fdDrop b) ∧
    (elapsedMs s.now s.tLastRx > 1000 → ∃ t : State, exec .fdTimeout s = .next t ∧ t.fdState = .listening)

/-! ### HexCodec -/

/-- R115: HEXNIB of the three digit ranges and of every other byte. -/
def Obligations.HexNibDecodesPermissively : Prop :=
  ∀ (c : Byte) (s : State), ∃ v : Nibble, exec (.hexNib c) s = .next { s with ret := .nibble v } ∧
    v.toNat =
      if 0x30 ≤ c.toNat ∧ c.toNat ≤ 0x39 then c.toNat - 0x30
      else if 0x41 ≤ c.toNat ∧ c.toNat ≤ 0x46 then c.toNat - 0x41 + 10
      else if 0x61 ≤ c.toNat ∧ c.toNat ≤ 0x66 then c.toNat - 0x61 + 10
      else 0

/-- R116: HEXBYTE is 16 times the first character's nibble plus the second's, without overflow. -/
def Obligations.HexByteJoinsTwoNibbles : Prop :=
  ∀ (c0 c1 : Byte) (s : State), ∃ (n0 n1 : Nibble) (v : Byte),
    exec (.hexNib c0) s = .next { s with ret := .nibble n0 } ∧ exec (.hexNib c1) s = .next { s with ret := .nibble n1 } ∧
    exec (.hexByte c0 c1) s = .next { s with ret := .byte v } ∧ v.toNat = 16 * n0.toNat + n1.toNat

/-- From R85, its last sentence: both letter cases are accepted and equivalent. -/
def Obligations.LetterCaseIsIgnored : Prop :=
  ∀ (c : Byte) (s : State), 0x41 ≤ c.toNat → c.toNat ≤ 0x46 → exec (.hexNib (c + 0x20)) s = exec (.hexNib c) s

/-! ### MessageDispatcher and BusRelay -/

/-- R120: MSGDEC returns HEXBYTE of buffer positions 0, 1 and of 2, 3, whatever `LEN` is. -/
def Obligations.MsgDecReadsTheFirstFourBytes : Prop :=
  ∀ s : State, ∃ address command : Byte,
    exec (.hexByte (s.bufRead 0) (s.bufRead 1)) s = .next { s with ret := .byte address } ∧
    exec (.hexByte (s.bufRead 2) (s.bufRead 3)) s = .next { s with ret := .byte command } ∧
    exec .msgDec s = .next { s with ret := .message address command } ∧
    ∀ n : BitVec 6, exec .msgDec { s with len := n } = .next { s with len := n, ret := .message address command }

/-- From R92, its last sentence: MSGDEC of the digits of a canonical frame returns the message. -/
def Obligations.MsgDecOfCanonicalDigits : Prop :=
  ∀ (address command : Byte) (s : State),
    [s.buf[0], s.buf[1], s.buf[2], s.buf[3]] = hexDigits address ++ hexDigits command →
    exec .msgDec s = .next { s with ret := .message address command }

/-- R121: DISPATCH does the selected command and then RELAY, and answers a next state; the own address is neither 254 nor 255. -/
def Obligations.DispatchRunsTheSelectedCommandThenRelays : Prop :=
  ∀ s : State,
    (∃ t : State, exec .dispatch s = .next t ∧
      runAll [decodeMessage Config.device.ownByte s.msgAddress s.msgCommand, .relay] s = .next t) ∧
    Config.device.ownByte.toNat ≤ 253 ∧
    decodeMessage Config.device.ownByte s.msgAddress s.msgCommand =
      if s.msgAddress = ADDR_SET_ON then .setOn s.msgCommand
      else if s.msgAddress = ADDR_SET_OFF then .setOff s.msgCommand
      else if s.msgAddress = Config.device.ownByte then .chMask s.msgCommand
      else .pass s.msgAddress s.msgCommand

/-- R122: SETON sets `ON_MS` to ten times the command and writes the sentinel and the command through to offsets 0 and 1; no other byte of
the store and no other state changes. A decoded address 255 selects it. -/
def Obligations.SetOnSetsAndPersistsTheOnTime : Prop :=
  ∀ (command : Byte) (s : State), Memory.wf Config.device s.nv = true →
    (∃ t : State, exec (.setOn command) s = .next t ∧ t = { s with onMs := t.onMs, nv := t.nv } ∧
      t.onMs.toNat = 10 * command.toNat ∧
      ∀ a : Nat, t.nvByte a = if a = 0 then Config.device.sentinel else if a = 1 then command else s.nvByte a) ∧
    (s.msgAddress = ADDR_SET_ON → exec .dispatch s = runAll [.setOn s.msgCommand, .relay] s)

/-- R123: SETOFF, the same for `OFF_MS` and the offsets 2 and 3. A decoded address 254 selects it. -/
def Obligations.SetOffSetsAndPersistsTheOffTime : Prop :=
  ∀ (command : Byte) (s : State), Memory.wf Config.device s.nv = true →
    (∃ t : State, exec (.setOff command) s = .next t ∧ t = { s with offMs := t.offMs, nv := t.nv } ∧
      t.offMs.toNat = 10 * command.toNat ∧
      ∀ a : Nat, t.nvByte a = if a = 2 then Config.device.sentinel else if a = 3 then command else s.nvByte a) ∧
    (s.msgAddress = ADDR_SET_OFF → exec .dispatch s = runAll [.setOff s.msgCommand, .relay] s)

/-- R124: CHMASK requests exactly the channels whose bits are set, each as REQON does at the same time sample; a clear bit does nothing.
The own address selects it. -/
def Obligations.ChMaskRequestsTheMaskedChannels : Prop :=
  ∀ (command : Byte) (s : State),
    (∃ t : State, exec (.chMask command) s = .next t ∧ t = { s with chOn := t.chOn, chT := t.chT } ∧
      ∀ i : Chan,
        (t.chOn[i], t.chT[i]) =
          if command.getLsbD i.val = true ∧ s.chOn[i] = false ∧ elapsedMs s.now s.chT[i] ≥ s.offMs.toNat then (true, s.now)
          else (s.chOn[i], s.chT[i])) ∧
    (s.msgAddress = Config.device.ownByte → exec .dispatch s = runAll [.chMask s.msgCommand, .relay] s)

/-- R125: PASS changes nothing; the frame is still relayed. Every other decoded address selects it. -/
def Obligations.PassChangesNothing : Prop :=
  ∀ (address command : Byte) (s : State),
    exec (.pass address command) s = .next s ∧
    (s.msgAddress ≠ ADDR_SET_ON → s.msgAddress ≠ ADDR_SET_OFF → s.msgAddress ≠ Config.device.ownByte →
      exec .dispatch s = exec .relay s)

/-- R126: RELAY appends the start marker, the `LEN` stored bytes and the line terminator to `TX`, and changes nothing else. (A `LEN` over
32, which no run reaches, is in RelayBeyondTheBufferEmitsAllOfIt.) -/
def Obligations.RelayEmitsTheStoredFrame : Prop :=
  ∀ s : State, s.len.toNat ≤ 32 → exec .relay s =
    .next { s with tx := s.tx ++ ([START_MARKER] ++ s.buf.toList.take s.len.toNat ++ Config.device.lineTerm) }

/-! ### ChannelTimingEngine -/

/-- R136: REQON energizes channel `i` exactly where it is off and its debounce window has passed, in wrapped unsigned time; no other
channel and no other state changes, and a request to a channel that is on changes nothing at all. -/
def Obligations.ReqOnIsGatedByTheDebounceWindow : Prop :=
  ∀ (i : Chan) (s : State),
    (∃ t : State, exec (.reqOn i) s = .next t ∧ t = { s with chOn := t.chOn, chT := t.chT } ∧
      (∀ j : Chan,
        (t.chOn[j], t.chT[j]) =
          if j = i ∧ s.chOn[i] = false ∧ elapsedMs s.now s.chT[i] ≥ s.offMs.toNat then (true, s.now)
          else (s.chOn[j], s.chT[j]))) ∧
    (s.chOn[i] = true → exec (.reqOn i) s = .next s)

/-- R137: POLLEXP turns off exactly the channels that have been on for more than `ON_MS`, in wrapped unsigned time, and stamps them with
the time of the poll. -/
def Obligations.PollExpTurnsOffTheOverdueChannels : Prop :=
  ∀ s : State, ∃ t : State, exec .pollExp s = .next t ∧ t = { s with chOn := t.chOn, chT := t.chT } ∧
    ∀ i : Chan,
      (t.chOn[i], t.chT[i]) =
        if s.chOn[i] = true ∧ elapsedMs s.now s.chT[i] > s.onMs.toNat then (false, s.now) else (s.chOn[i], s.chT[i])

/-- R138: CURMASK pushes and returns the mask whose bit `i` is `CH_ON[i]`. -/
def Obligations.CurMaskPacksTheChannels : Prop :=
  ∀ s : State, ∃ m : BitVec 8, exec .curMask s = .next { s with outMask := m, ret := .mask m } ∧
    ∀ i : Chan, m.getLsbD i.val = s.chOn[i]

/-- From R139: CHMASK, POLLEXP and CURMASK are lane-wise. Two states and masks that agree on lane `i` and on what all lanes share agree on
lane `i` afterwards. -/
def Obligations.ChannelLanesAreIndependent : Prop :=
  ∀ (i : Chan) (s u : State) (m n : Byte),
    s.chOn[i] = u.chOn[i] → s.chT[i] = u.chT[i] → s.now = u.now → s.onMs = u.onMs → s.offMs = u.offMs →
    m.getLsbD i.val = n.getLsbD i.val →
    (∃ s' u' : State, exec (.chMask m) s = .next s' ∧ exec (.chMask n) u = .next u' ∧
      s'.chOn[i] = u'.chOn[i] ∧ s'.chT[i] = u'.chT[i]) ∧
    (∃ s' u' : State, exec .pollExp s = .next s' ∧ exec .pollExp u = .next u' ∧
      s'.chOn[i] = u'.chOn[i] ∧ s'.chT[i] = u'.chT[i]) ∧
    (∃ s' u' : State, exec .curMask s = .next s' ∧ exec .curMask u = .next u' ∧
      s'.outMask.getLsbD i.val = u'.outMask.getLsbD i.val)

/-- From R124 ("the iteration order is not observable"): the requests of one mask may be made in any order. -/
def Obligations.RequestOrderIsNotObservable : Prop :=
  ∀ (command : Byte) (s : State) (order : List Chan), order.Perm [0, 1, 2, 3, 4, 5, 6, 7] →
    runAll ((order.filter fun i => command.getLsbD i.val).map .reqOn) s = exec (.chMask command) s

/-! ### ConfigStore -/

/-- From R52 and R53, over the canonical list that holds the store (log 3): at an offset that exists NVRD returns the byte stored there,
and NVWR changes that byte alone and keeps the store's canonical form. -/
def Obligations.StoreReadsTheLastByteWritten : Prop :=
  ∀ (off : Nat) (v : Byte) (s : State), off < Config.device.nvSize →
    exec (.nvRd off) s = .next { s with ret := .byte (s.nvByte off) } ∧
    (Memory.wf Config.device s.nv = true →
      ∃ t : State, exec (.nvWr off v) s = .next t ∧ t = { s with nv := t.nv } ∧ Memory.wf Config.device t.nv = true ∧
        ∀ a : Nat, t.nvByte a = if a = off then v else s.nvByte a)

/-- THE MODEL'S CHOICE (log 11): an offset at or above `NV_SIZE` does not exist (R51), and NVRD and NVWR of it fault. -/
def Obligations.MissingOffsetsFault : Prop :=
  ∀ (off : Nat) (v : Byte) (s : State), Config.device.nvSize ≤ off →
    exec (.nvRd off) s = .fault .nvOffset ∧ exec (.nvWr off v) s = .fault .nvOffset

/-- R146: CFGLOAD takes each field from the store where its flag equals the sentinel, else its default; nothing else changes. -/
def Obligations.CfgLoadTakesStoreOrDefault : Prop :=
  ∀ s : State, ∃ t : State, exec .cfgLoad s = .next t ∧ t = { s with onMs := t.onMs, offMs := t.offMs } ∧
    t.onMs.toNat =
      (if s.nvByte 0 = Config.device.sentinel then 10 * (s.nvByte 1).toNat else Config.device.defaultOnMs.toNat) ∧
    t.offMs.toNat =
      (if s.nvByte 2 = Config.device.sentinel then 10 * (s.nvByte 3).toNat else Config.device.defaultOffMs.toNat)

/-- R147: CFGSAVE.ON writes the sentinel at offset 0 and the unscaled command at offset 1, nothing else. -/
def Obligations.CfgSaveOnWritesFlagAndValue : Prop :=
  ∀ (command : Byte) (s : State), Memory.wf Config.device s.nv = true →
    ∃ t : State, exec (.cfgSaveOn command) s = .next t ∧ t = { s with nv := t.nv } ∧
      ∀ a : Nat, t.nvByte a = if a = 0 then Config.device.sentinel else if a = 1 then command else s.nvByte a

/-- R148: CFGSAVE.OFF, the same at offsets 2 and 3. -/
def Obligations.CfgSaveOffWritesFlagAndValue : Prop :=
  ∀ (command : Byte) (s : State), Memory.wf Config.device s.nv = true →
    ∃ t : State, exec (.cfgSaveOff command) s = .next t ∧ t = { s with nv := t.nv } ∧
      ∀ a : Nat, t.nvByte a = if a = 2 then Config.device.sentinel else if a = 3 then command else s.nvByte a

/-- The one-command case of R149, which the spec marks as its own inference: a boot after a SETON loads the on-time that the SETON set, and
likewise for SETOFF. -/
def Obligations.BootReloadsWhatWasSet : Prop :=
  ∀ (command : Byte) (now : Time) (s : State), Memory.wf Config.device s.nv = true →
    (∃ t u : State, exec (.setOn command) s = .next t ∧ exec (.init now) t = .next u ∧
      u.onMs = t.onMs ∧ u.onMs.toNat = 10 * command.toNat) ∧
    (∃ t u : State, exec (.setOff command) s = .next t ∧ exec (.init now) t = .next u ∧
      u.offMs = t.offMs ∧ u.offMs.toNat = 10 * command.toNat)

/-! ### The control cycle, initialisation and the step -/

/-- R156: CYCLE is FD.TIMEOUT, then FD.RX of each byte in order, then POLLEXP, then CURMASK, all at its own sample of `now`. (CURMASK
executed by itself also leaves its value in the model's result field, log 8; within CYCLE it does not.) -/
def Obligations.CycleIsItsOperationsInOrder : Prop :=
  ∀ (now : Time) (rx : List Byte) (s : State), ∃ t : State, exec (.cycle now rx) s = .next t ∧
    runAll ([.fdTimeout] ++ rx.map .fdRx ++ [.pollExp, .curMask]) { s with now := sampleOf now } = .next { t with ret := .mask t.outMask } ∧
    t.ret = s.ret

/-- R157: INIT sets every volatile element but the buffer, and writes neither the store nor `TX`. -/
def Obligations.InitSetsTheResetValues : Prop :=
  ∀ (now : Time) (s : State), ∃ t : State, exec (.init now) s = .next t ∧
    t = { s with fdState := .listening, len := 0, tLastRx := sampleOf now, chOn := Vector.replicate 8 false,
                 chT := Vector.replicate 8 (sampleOf now), onMs := t.onMs, offMs := t.offMs, outMask := 0, now := sampleOf now } ∧
    exec .cfgLoad s = .next { s with onMs := t.onMs, offMs := t.offMs }

/-- R155: a step executes the operation that the environment's next move decodes to: a control cycle, or, after RESET has replaced the
buffer's contents and nothing else of the spec's state, INIT. With no move placed the environment's own next move is taken. How moves
are placed and decoded is THE MODEL'S CHOICE (log 7). -/
def Obligations.StepRunsTheDecodedMove : Prop :=
  (∀ (s : State) (now : Time) (rx : List Byte) (rest : List EnvMove), s.pending = .cycle now rx :: rest →
    decodeMove s.nextMove = .cycle now rx ∧ step s = exec (.cycle now rx) { s with pending := rest }) ∧
  (∀ (s : State) (now : Time) (rest : List EnvMove), s.pending = .reset now :: rest →
    decodeMove s.nextMove = .init now ∧
    ∃ buf : Vector Byte 32, step s = exec (.init now) { s with pending := rest, buf := buf, boots := s.boots + 1 }) ∧
  (∀ s : State, s.pending = [] →
    step s = step { s with pending := [Config.envMove s.envIndex], envIndex := s.envIndex + 1 })

/-- R68: a RESET step changes no byte of the store and nothing of `TX`; all channels are off after it. -/
def Obligations.ResetKeepsTheStore : Prop :=
  ∀ (s : State) (now : Time) (rest : List EnvMove), s.pending = .reset now :: rest →
    ∃ t : State, step s = .next t ∧ t.nv = s.nv ∧ (∀ a : Nat, t.nvByte a = s.nvByte a) ∧ t.tx = s.tx ∧
      t.fdState = .listening ∧ t.len = 0 ∧ t.tLastRx = sampleOf now ∧ t.outMask = 0 ∧ t.pending = rest ∧
      ∀ i : Chan, t.chOn[i] = false ∧ t.chT[i] = sampleOf now

/-- From R170 ("for every state and every input it produces a next state"): every step answers a next state, in every state and for every
move of the environment. -/
def Obligations.EveryStepAnswersNext : Prop :=
  ∀ s : State, ∃ t : State, step s = .next t

/-- R45: the state after reset is what INIT makes at the boot time, from a store the block has never written. (`Config.bootTime`, the
buffer's contents and the store's are the model's free values, log 3, log 4 and log 5; the model's own fields start as log 4, log 7 and
log 8 say.) -/
def Obligations.ResetStateIsMadeByInit : Prop :=
  ∀ s : State,
    exec (.init Config.bootTime)
      { s with buf := State.reset.buf, nv := [], tx := [], pending := [], envIndex := 0, boots := 1, ret := .none } =
    .next State.reset

/-- R204, which the spec marks as its own inference: requests during the first `OFF_MS` milliseconds after INIT are rejected, for every
mask and channel. -/
def Obligations.RequestsAreDebouncedAfterBoot : Prop :=
  ∀ (boot now : Time) (command : Byte) (s u : State), exec (.init boot) s = .next u →
    elapsedMs now boot < u.offMs.toNat →
    exec (.chMask command) { u with now := now } = .next { u with now := now }

/-! ### Frames as the decoder delimits them -/

/-- From R77, within one cycle: from LISTENING a frame of any payload without an end marker is stored with its first 31 bytes and its
marker, relayed once, and leaves the rest of the buffer as it was. -/
def Obligations.WholeFrameIsStoredAndRelayedOnce : Prop :=
  ∀ (s : State) (now : Time) (payload : List Byte), s.fdState = .listening → END_MARKER ∉ payload →
    ∃ t : State, exec (.cycle now (wireFrame payload)) s = .next t ∧
      t.tx = s.tx ++ (wireFrame (payload.take 31) ++ Config.device.lineTerm) ∧
      t.fdState = .listening ∧ t.tLastRx = sampleOf now ∧ t.len.toNat = min payload.length 31 + 1 ∧
      ∀ i : Fin 32, t.buf[i] =
        if i.val < min payload.length 31 then payload.getD i.val 0
        else if i.val = min payload.length 31 then END_MARKER else s.buf[i]

/-- From R79, R82 and R87: from LISTENING, a cycle that receives one whole frame of at least four payload characters does to the
configuration, the store and the channels what the decoded command does at that time, followed by POLLEXP. -/
def Obligations.WholeFrameRunsItsCommand : Prop :=
  ∀ (s : State) (now : Time) (w : List Byte) (i : Instr), s.fdState = .listening →
    decodeFrame Config.device.ownByte w = .ok (i, []) →
    ∃ t u v : State, exec (.cycle now w) s = .next t ∧ exec i { s with now := sampleOf now } = .next u ∧ exec .pollExp u = .next v ∧
      t.onMs = v.onMs ∧ t.offMs = v.offMs ∧ t.nv = v.nv ∧ t.chOn = v.chOn ∧ t.chT = v.chT

/-- From R77, and from R108, which the spec marks as its own inference, over any split into cycles: a frame whose bytes arrive over several
cycles with no gap above 1000 ms between bytes is relayed exactly once, with its first 31 payload bytes. -/
def Obligations.SplitFrameIsRelayedOnce : Prop :=
  ∀ (s : State) (now : Time) (rx : List Byte) (rest : List (Time × List Byte)) (payload : List Byte),
    s.fdState = .listening → END_MARKER ∉ payload →
    (START_MARKER :: rx) ++ (rest.map Prod.snd).flatten = wireFrame payload → gapsShort now rest →
    ∃ t : State, runMoves (rest.length + 1) (asMoves ((now, START_MARKER :: rx) :: rest)) s = .next t ∧
      t.tx = s.tx ++ (wireFrame (payload.take 31) ++ Config.device.lineTerm) ∧
      t.fdState = .listening ∧ t.len.toNat = min payload.length 31 + 1 ∧
      t.buf.toList.take t.len.toNat = payload.take 31 ++ [END_MARKER]

/-- From R106 and R175: a frame stalled for more than 1000 ms is discarded before the first byte of the cycle that finds it so: the cycle
does what it would have done had there been no frame. -/
def Obligations.StalledFrameIsDiscardedFirst : Prop :=
  ∀ (s : State) (now : Time) (rx : List Byte), s.fdState = .accumulating → elapsedMs now s.tLastRx > 1000 →
    ∃ t : State, exec (.cycle now rx) s = .next t ∧
      exec (.cycle now rx) { s with len := 0, fdState := .listening } = .next t

/-- R89: bytes outside any frame have no effect but on `T_LAST_RX`. -/
def Obligations.BytesOutsideFramesAreIgnored : Prop :=
  ∀ (s : State) (now : Time) (rx : List Byte), s.fdState = .listening → START_MARKER ∉ rx → rx ≠ [] →
    ∃ t : State, exec (.cycle now []) s = .next t ∧ exec (.cycle now rx) s = .next { t with tLastRx := sampleOf now }

/-- R127, which the spec marks as its own inference: what a device (of any parameters) emits for a frame is, for a listening device
downstream (of any parameters), the same frame as relayed: its terminator is skipped. -/
def Obligations.DownstreamReceivesTheSameFrame : Prop :=
  ∀ (p q : Params) (nowA nowB : Time) (a b : State) (payload : List Byte),
    a.fdState = .listening → b.fdState = .listening → END_MARKER ∉ payload →
    ∃ out : List Byte, (cycle p nowA (wireFrame payload) a).tx = a.tx ++ out ∧
      cycle q nowB out b = cycle q nowB (wireFrame (payload.take 31)) b ∧
      ∃ hop : List Byte, (cycle q nowB out b).tx = b.tx ++ hop ∧ hop = wireFrame (payload.take 31) ++ q.lineTerm

/-! ### Rules about the whole machine -/

/-- R39, which the spec marks as its own inference: the invariants, and the canonical form of the store, are kept by every step, which
always answers a next state (R170). That times fit `TIME_W` bits and the canonical form are the model's own forms (log 1, log 3). -/
def Obligations.StepKeepsTheInvariants : Prop :=
  ∀ s : State, s.Inv → ∃ t : State, step s = .next t ∧ t.Inv

/-- The invariants hold after reset. -/
def Obligations.ResetHasTheInvariants : Prop := State.reset.Inv

/-- From R149, which the spec marks as its own inference: every step keeps the configuration registers equal to what a boot would load from
the store. -/
def Obligations.StepKeepsConfigEqualToStore : Prop :=
  ∀ s : State, s.Inv → s.ConfigMatchesStore → ∃ t : State, step s = .next t ∧ t.ConfigMatchesStore

/-- From R45: after reset the configuration registers are what the store gives. -/
def Obligations.ResetHasConfigEqualToStore : Prop := State.reset.ConfigMatchesStore

/-- From R149, which the spec marks as its own inference: a flag that is set stays set. From R34: no step reads or writes offsets from 4
on, so their bytes stay. -/
def Obligations.StepNeverClearsAFlagNorTouchesUpperBytes : Prop :=
  ∀ s : State, Memory.wf Config.device s.nv = true → ∃ t : State, step s = .next t ∧
    (s.nvByte 0 = Config.device.sentinel → t.nvByte 0 = Config.device.sentinel) ∧
    (s.nvByte 2 = Config.device.sentinel → t.nvByte 2 = Config.device.sentinel) ∧
    ∀ a : Nat, 4 ≤ a → t.nvByte a = s.nvByte a

/-- From R40, and from R108, which the spec marks as its own inference: `TX` only grows, and only RELAY and the operations that run it make
it grow: DISPATCH, FD.END, FD.RX of an end marker while ACCUMULATING, and CYCLE. -/
def Obligations.TxOnlyGrowsByRelayAndWhatRunsIt : Prop :=
  ∀ (i : Instr) (s t : State), exec i s = .next t →
    (∃ out : List Byte, t.tx = s.tx ++ out) ∧
    (t.tx ≠ s.tx → i = .relay ∨ i = .dispatch ∨ i = .fdEnd ∨ (i = .fdRx END_MARKER ∧ s.fdState = .accumulating) ∨
      ∃ now rx, i = .cycle now rx)

/-- From R128 and R135: no operation turns a channel off but POLLEXP, the CYCLE that runs it, and INIT; none turns one on but REQON and the
operations that run it. -/
def Obligations.ChannelsChangeOnlyByTheirOwnOperations : Prop :=
  ∀ (i : Instr) (s t : State) (ch : Chan), exec i s = .next t →
    (s.chOn[ch] = true → t.chOn[ch] = false → i = .pollExp ∨ (∃ now rx, i = .cycle now rx) ∨ ∃ now, i = .init now) ∧
    (s.chOn[ch] = false → t.chOn[ch] = true →
      i = .reqOn ch ∨ (∃ m : Byte, i = .chMask m ∧ m.getLsbD ch.val = true) ∨ i = .dispatch ∨ i = .fdEnd ∨
      i = .fdRx END_MARKER ∨ ∃ now rx, i = .cycle now rx)

/-- From R107: the only transitions of `FD_STATE` are by FD.START, FD.END and FD.TIMEOUT (and the operations that run them), apart from
INIT after a RESET. -/
def Obligations.DecoderStateChangesOnlyByThree : Prop :=
  ∀ (i : Instr) (s t : State), exec i s = .next t →
    (s.fdState = .listening → t.fdState = .accumulating →
      i = .fdStart ∨ i = .fdRx START_MARKER ∨ ∃ now rx, i = .cycle now rx) ∧
    (s.fdState = .accumulating → t.fdState = .listening →
      i = .fdEnd ∨ i = .fdTimeout ∨ i = .fdRx END_MARKER ∨ (∃ now rx, i = .cycle now rx) ∨ ∃ now, i = .init now)

/-- From R31, and from R140, which the spec marks as its own inference: what one cycle does to one channel. A timestamp changes exactly
with a transition and then is the cycle's time; the channel goes off exactly where it was on for more than the `ON_MS` in force at the
end; where it goes on, some frame of the cycle ended while its debounce window, by the `OFF_MS` then in force, had passed. -/
def Obligations.ChannelHistoryOfACycle : Prop :=
  ∀ (s : State) (now : Time) (rx : List Byte) (i : Chan), ∃ t : State, exec (.cycle now rx) s = .next t ∧
    t.chT[i] = (if t.chOn[i] = s.chOn[i] then s.chT[i] else sampleOf now) ∧
    (s.chOn[i] = true → (t.chOn[i] = false ↔ elapsedMs now s.chT[i] > t.onMs.toNat)) ∧
    (s.chOn[i] = false → t.chOn[i] = true →
      ∃ (before after : List Byte) (u : State), rx = before ++ END_MARKER :: after ∧
        runAll (.fdTimeout :: before.map .fdRx) { s with now := sampleOf now } = .next u ∧
        u.fdState = .accumulating ∧ u.offMs.toNat ≤ elapsedMs now s.chT[i])

/-- The expiry bound of R164, which the spec marks as its own inference: a channel that was energized at the time `start` is off at the
latest `ON_MS + C` milliseconds later, where no two successive cycles are further than `C` apart, `ON_MS` is not changed meanwhile, and
no interval reaches the counter's range (R200). The times are true ones; the machine sees them modulo `2^TIME_W`. -/
def Obligations.EnergizedChannelExpiresInTime : Prop :=
  ∀ (s : State) (i : Chan) (start C : Nat) (cycles : List (Nat × List Byte)),
    s.chOn[i] = true → s.chT[i] = sampleOf start →
    (start :: cycles.map Prod.fst).IsChain (fun a b => a ≤ b ∧ b ≤ a + C) →
    s.onMs.toNat + C < 2 ^ Config.device.timeW →
    (∃ c ∈ cycles, start + s.onMs.toNat < c.1) →
    (∀ k, k ≤ cycles.length → ∀ t : State, runMoves k (asMoves cycles) s = .next t → t.onMs = s.onMs) →
    ∃ k, ∃ h : k < cycles.length, cycles[k].1 ≤ start + s.onMs.toNat + C ∧
      ∃ t : State, runMoves (k + 1) (asMoves cycles) s = .next t ∧ t.chOn[i] = false

/-! ### Encodings and parameters -/

/-- From R76 and R92: decoding the encoding of a well-formed operation gives it back, for every operand: the five byte-level operations in
the decoder state that selects them, the four wire commands from their canonical frames. -/
def Obligations.DecodeOfEncodeIsTheOperation : Prop :=
  ∀ (p : Params) (i : Instr) (w : List Byte), wellFormed p i = true → encode p i = some w →
    match i with
    | .fdStart => ∀ len, w.map (decodeByte .listening len) = [i]
    | .fdSkip _ => ∀ len, w.map (decodeByte .listening len) = [i]
    | .fdEnd => ∀ len, w.map (decodeByte .accumulating len) = [i]
    | .fdData _ => ∀ len : BitVec 6, len.toNat < 31 → w.map (decodeByte .accumulating len) = [i]
    | .fdDrop _ => ∀ len : BitVec 6, len.toNat = 31 → w.map (decodeByte .accumulating len) = [i]
    | _ => decodeFrame p.ownByte w = .ok (i, [])

/-- From R82 and R83: every byte in every decoder state and every message decodes to a well-formed operation whose encoding is that byte or
that message's canonical frame. -/
def Obligations.EncodeOfDecodeIsTheWord : Prop :=
  ∀ p : Params,
    (∀ (fd : FdState) (len : BitVec 6) (b : Byte),
      wellFormed p (decodeByte fd len b) = true ∧ encode p (decodeByte fd len b) = some [b]) ∧
    ∀ address command : Byte,
      wellFormed p (decodeMessage p.ownByte address command) = true ∧
      encode p (decodeMessage p.ownByte address command) = some (canonicalFrame address command)

/-- From R75, R76 and R82, on a few words: they decode to the operations they stand for. That `decodeTableWord` reads the byte `0x3E` while
ACCUMULATING, any other while LISTENING, and a message as its canonical frame is THE MODEL'S CHOICE (log 13). -/
def Obligations.WordsDecodeToTheirOperations : Prop :=
  decodeTableWord 8 0x3C = some .fdStart ∧ decodeTableWord 8 0x3E = some .fdEnd ∧
  decodeByte .accumulating 2 0x3C = .fdData 0x3C ∧ decodeByte .accumulating 31 0x41 = .fdDrop 0x41 ∧
  decodeTableWord 16 0xFF19 = some (.setOn 0x19) ∧ decodeTableWord 16 0xFE0A = some (.setOff 0x0A) ∧
  decodeFrame 0x01 [0x3C, 0x30, 0x31, 0x39, 0x34, 0x3E] = .ok (.chMask 0x94, []) ∧
  decodeFrame 0x01 [0x3C, 0x30, 0x32, 0x30, 0x31, 0x3E] = .ok (.pass 0x02 0x01, [])

/-- From R12, R15, R17 and R18: the parameters of every device satisfy their constraints. That they do so by their types is THE MODEL'S
CHOICE (log 2). -/
def Obligations.ParametersAreLegal : Prop :=
  ∀ p : Params, p.ownByte.toNat ≤ 253 ∧ 16 ≤ p.timeW ∧ p.lineTerm ≠ [] ∧ START_MARKER ∉ p.lineTerm ∧ 4 ≤ p.nvSize

/-- From D30 and R170: exactly the legal parameter sets are admitted, with the values they give. The form is THE MODEL'S
CHOICE (log 2). -/
def Obligations.IllegalParameterSetsAreRefused : Prop :=
  ∀ (r : RawParams) (fresh : Nat → Byte),
    ((∃ p : Params, r.accept fresh = some p) ↔
      r.ownAddr ≤ 253 ∧ 16 ≤ r.timeW ∧ r.defaultOnMs < 2 ^ 16 ∧ r.defaultOffMs < 2 ^ 16 ∧ r.lineTerm ≠ [] ∧
      START_MARKER ∉ r.lineTerm ∧ 4 ≤ r.nvSize) ∧
    ∀ p : Params, r.accept fresh = some p →
      p.ownByte.toNat = r.ownAddr ∧ p.sentinel = r.sentinel ∧ p.defaultOnMs.toNat = r.defaultOnMs ∧
      p.defaultOffMs.toNat = r.defaultOffMs ∧ p.lineTerm = r.lineTerm ∧ p.nvSize = r.nvSize ∧ p.timeW = r.timeW ∧
      p.cycleMaxMs = r.cycleMaxMs

/-! ### Outside the rows' conditions -/

/-- THE MODEL'S CHOICE (log 10), in states that no run reaches: R126 gives RELAY for a `LEN` up to 32; over that it emits the 32 bytes there
are. -/
def Obligations.RelayBeyondTheBufferEmitsAllOfIt : Prop :=
  ∀ s : State, 32 < s.len.toNat → exec .relay s =
    .next { s with tx := s.tx ++ ([START_MARKER] ++ s.buf.toList ++ Config.device.lineTerm) }
end

