-- ==== Sys2Proof/Laws/State.lean ====
section
/-! SUPPORT. What each named update does to each field of State: one lemma per field per update, so that no proof unfolds a record update. -/

namespace Sys2Proof.Machine

variable (s : State)

@[simp] theorem State.memWrite_fdState (p : Params) (off : Nat) (v : Byte) : (State.memWrite p off v s).fdState = s.fdState := rfl
@[simp] theorem State.memWrite_buf (p : Params) (off : Nat) (v : Byte) : (State.memWrite p off v s).buf = s.buf := rfl
@[simp] theorem State.memWrite_len (p : Params) (off : Nat) (v : Byte) : (State.memWrite p off v s).len = s.len := rfl
@[simp] theorem State.memWrite_tLastRx (p : Params) (off : Nat) (v : Byte) : (State.memWrite p off v s).tLastRx = s.tLastRx := rfl
@[simp] theorem State.memWrite_chOn (p : Params) (off : Nat) (v : Byte) : (State.memWrite p off v s).chOn = s.chOn := rfl
@[simp] theorem State.memWrite_chT (p : Params) (off : Nat) (v : Byte) : (State.memWrite p off v s).chT = s.chT := rfl
@[simp] theorem State.memWrite_onMs (p : Params) (off : Nat) (v : Byte) : (State.memWrite p off v s).onMs = s.onMs := rfl
@[simp] theorem State.memWrite_offMs (p : Params) (off : Nat) (v : Byte) : (State.memWrite p off v s).offMs = s.offMs := rfl
@[simp] theorem State.memWrite_outMask (p : Params) (off : Nat) (v : Byte) : (State.memWrite p off v s).outMask = s.outMask := rfl
@[simp] theorem State.memWrite_nv (p : Params) (off : Nat) (v : Byte) : (State.memWrite p off v s).nv = Memory.write p s.nv off v := rfl
@[simp] theorem State.memWrite_tx (p : Params) (off : Nat) (v : Byte) : (State.memWrite p off v s).tx = s.tx := rfl
@[simp] theorem State.memWrite_now (p : Params) (off : Nat) (v : Byte) : (State.memWrite p off v s).now = s.now := rfl
@[simp] theorem State.memWrite_pending (p : Params) (off : Nat) (v : Byte) : (State.memWrite p off v s).pending = s.pending := rfl
@[simp] theorem State.memWrite_envIndex (p : Params) (off : Nat) (v : Byte) : (State.memWrite p off v s).envIndex = s.envIndex := rfl
@[simp] theorem State.memWrite_boots (p : Params) (off : Nat) (v : Byte) : (State.memWrite p off v s).boots = s.boots := rfl
@[simp] theorem State.memWrite_ret (p : Params) (off : Nat) (v : Byte) : (State.memWrite p off v s).ret = s.ret := rfl

@[simp] theorem State.storeByte_fdState (b : Byte) : (State.storeByte b s).fdState = s.fdState := rfl
@[simp] theorem State.storeByte_buf (b : Byte) : (State.storeByte b s).buf = bufPut s.buf s.len b := rfl
@[simp] theorem State.storeByte_len (b : Byte) : (State.storeByte b s).len = lenNext s.len := rfl
@[simp] theorem State.storeByte_tLastRx (b : Byte) : (State.storeByte b s).tLastRx = s.tLastRx := rfl
@[simp] theorem State.storeByte_chOn (b : Byte) : (State.storeByte b s).chOn = s.chOn := rfl
@[simp] theorem State.storeByte_chT (b : Byte) : (State.storeByte b s).chT = s.chT := rfl
@[simp] theorem State.storeByte_onMs (b : Byte) : (State.storeByte b s).onMs = s.onMs := rfl
@[simp] theorem State.storeByte_offMs (b : Byte) : (State.storeByte b s).offMs = s.offMs := rfl
@[simp] theorem State.storeByte_outMask (b : Byte) : (State.storeByte b s).outMask = s.outMask := rfl
@[simp] theorem State.storeByte_nv (b : Byte) : (State.storeByte b s).nv = s.nv := rfl
@[simp] theorem State.storeByte_tx (b : Byte) : (State.storeByte b s).tx = s.tx := rfl
@[simp] theorem State.storeByte_now (b : Byte) : (State.storeByte b s).now = s.now := rfl
@[simp] theorem State.storeByte_pending (b : Byte) : (State.storeByte b s).pending = s.pending := rfl
@[simp] theorem State.storeByte_envIndex (b : Byte) : (State.storeByte b s).envIndex = s.envIndex := rfl
@[simp] theorem State.storeByte_boots (b : Byte) : (State.storeByte b s).boots = s.boots := rfl
@[simp] theorem State.storeByte_ret (b : Byte) : (State.storeByte b s).ret = s.ret := rfl

@[simp] theorem State.setFd_fdState (fd : FdState) : (State.setFd fd s).fdState = fd := rfl
@[simp] theorem State.setFd_buf (fd : FdState) : (State.setFd fd s).buf = s.buf := rfl
@[simp] theorem State.setFd_len (fd : FdState) : (State.setFd fd s).len = s.len := rfl
@[simp] theorem State.setFd_tLastRx (fd : FdState) : (State.setFd fd s).tLastRx = s.tLastRx := rfl
@[simp] theorem State.setFd_chOn (fd : FdState) : (State.setFd fd s).chOn = s.chOn := rfl
@[simp] theorem State.setFd_chT (fd : FdState) : (State.setFd fd s).chT = s.chT := rfl
@[simp] theorem State.setFd_onMs (fd : FdState) : (State.setFd fd s).onMs = s.onMs := rfl
@[simp] theorem State.setFd_offMs (fd : FdState) : (State.setFd fd s).offMs = s.offMs := rfl
@[simp] theorem State.setFd_outMask (fd : FdState) : (State.setFd fd s).outMask = s.outMask := rfl
@[simp] theorem State.setFd_nv (fd : FdState) : (State.setFd fd s).nv = s.nv := rfl
@[simp] theorem State.setFd_tx (fd : FdState) : (State.setFd fd s).tx = s.tx := rfl
@[simp] theorem State.setFd_now (fd : FdState) : (State.setFd fd s).now = s.now := rfl
@[simp] theorem State.setFd_pending (fd : FdState) : (State.setFd fd s).pending = s.pending := rfl
@[simp] theorem State.setFd_envIndex (fd : FdState) : (State.setFd fd s).envIndex = s.envIndex := rfl
@[simp] theorem State.setFd_boots (fd : FdState) : (State.setFd fd s).boots = s.boots := rfl
@[simp] theorem State.setFd_ret (fd : FdState) : (State.setFd fd s).ret = s.ret := rfl

@[simp] theorem State.clearLen_fdState : (State.clearLen s).fdState = s.fdState := rfl
@[simp] theorem State.clearLen_buf : (State.clearLen s).buf = s.buf := rfl
@[simp] theorem State.clearLen_len : (State.clearLen s).len = 0 := rfl
@[simp] theorem State.clearLen_tLastRx : (State.clearLen s).tLastRx = s.tLastRx := rfl
@[simp] theorem State.clearLen_chOn : (State.clearLen s).chOn = s.chOn := rfl
@[simp] theorem State.clearLen_chT : (State.clearLen s).chT = s.chT := rfl
@[simp] theorem State.clearLen_onMs : (State.clearLen s).onMs = s.onMs := rfl
@[simp] theorem State.clearLen_offMs : (State.clearLen s).offMs = s.offMs := rfl
@[simp] theorem State.clearLen_outMask : (State.clearLen s).outMask = s.outMask := rfl
@[simp] theorem State.clearLen_nv : (State.clearLen s).nv = s.nv := rfl
@[simp] theorem State.clearLen_tx : (State.clearLen s).tx = s.tx := rfl
@[simp] theorem State.clearLen_now : (State.clearLen s).now = s.now := rfl
@[simp] theorem State.clearLen_pending : (State.clearLen s).pending = s.pending := rfl
@[simp] theorem State.clearLen_envIndex : (State.clearLen s).envIndex = s.envIndex := rfl
@[simp] theorem State.clearLen_boots : (State.clearLen s).boots = s.boots := rfl
@[simp] theorem State.clearLen_ret : (State.clearLen s).ret = s.ret := rfl

@[simp] theorem State.stampRx_fdState : (State.stampRx s).fdState = s.fdState := rfl
@[simp] theorem State.stampRx_buf : (State.stampRx s).buf = s.buf := rfl
@[simp] theorem State.stampRx_len : (State.stampRx s).len = s.len := rfl
@[simp] theorem State.stampRx_tLastRx : (State.stampRx s).tLastRx = s.now := rfl
@[simp] theorem State.stampRx_chOn : (State.stampRx s).chOn = s.chOn := rfl
@[simp] theorem State.stampRx_chT : (State.stampRx s).chT = s.chT := rfl
@[simp] theorem State.stampRx_onMs : (State.stampRx s).onMs = s.onMs := rfl
@[simp] theorem State.stampRx_offMs : (State.stampRx s).offMs = s.offMs := rfl
@[simp] theorem State.stampRx_outMask : (State.stampRx s).outMask = s.outMask := rfl
@[simp] theorem State.stampRx_nv : (State.stampRx s).nv = s.nv := rfl
@[simp] theorem State.stampRx_tx : (State.stampRx s).tx = s.tx := rfl
@[simp] theorem State.stampRx_now : (State.stampRx s).now = s.now := rfl
@[simp] theorem State.stampRx_pending : (State.stampRx s).pending = s.pending := rfl
@[simp] theorem State.stampRx_envIndex : (State.stampRx s).envIndex = s.envIndex := rfl
@[simp] theorem State.stampRx_boots : (State.stampRx s).boots = s.boots := rfl
@[simp] theorem State.stampRx_ret : (State.stampRx s).ret = s.ret := rfl

@[simp] theorem State.sample_fdState (p : Params) (t : Time) : (State.sample p t s).fdState = s.fdState := rfl
@[simp] theorem State.sample_buf (p : Params) (t : Time) : (State.sample p t s).buf = s.buf := rfl
@[simp] theorem State.sample_len (p : Params) (t : Time) : (State.sample p t s).len = s.len := rfl
@[simp] theorem State.sample_tLastRx (p : Params) (t : Time) : (State.sample p t s).tLastRx = s.tLastRx := rfl
@[simp] theorem State.sample_chOn (p : Params) (t : Time) : (State.sample p t s).chOn = s.chOn := rfl
@[simp] theorem State.sample_chT (p : Params) (t : Time) : (State.sample p t s).chT = s.chT := rfl
@[simp] theorem State.sample_onMs (p : Params) (t : Time) : (State.sample p t s).onMs = s.onMs := rfl
@[simp] theorem State.sample_offMs (p : Params) (t : Time) : (State.sample p t s).offMs = s.offMs := rfl
@[simp] theorem State.sample_outMask (p : Params) (t : Time) : (State.sample p t s).outMask = s.outMask := rfl
@[simp] theorem State.sample_nv (p : Params) (t : Time) : (State.sample p t s).nv = s.nv := rfl
@[simp] theorem State.sample_tx (p : Params) (t : Time) : (State.sample p t s).tx = s.tx := rfl
@[simp] theorem State.sample_now (p : Params) (t : Time) : (State.sample p t s).now = t % p.timeMod := rfl
@[simp] theorem State.sample_pending (p : Params) (t : Time) : (State.sample p t s).pending = s.pending := rfl
@[simp] theorem State.sample_envIndex (p : Params) (t : Time) : (State.sample p t s).envIndex = s.envIndex := rfl
@[simp] theorem State.sample_boots (p : Params) (t : Time) : (State.sample p t s).boots = s.boots := rfl
@[simp] theorem State.sample_ret (p : Params) (t : Time) : (State.sample p t s).ret = s.ret := rfl

@[simp] theorem State.setChannel_fdState (i : Chan) (on : Bool) : (State.setChannel i on s).fdState = s.fdState := rfl
@[simp] theorem State.setChannel_buf (i : Chan) (on : Bool) : (State.setChannel i on s).buf = s.buf := rfl
@[simp] theorem State.setChannel_len (i : Chan) (on : Bool) : (State.setChannel i on s).len = s.len := rfl
@[simp] theorem State.setChannel_tLastRx (i : Chan) (on : Bool) : (State.setChannel i on s).tLastRx = s.tLastRx := rfl
@[simp] theorem State.setChannel_chOn (i : Chan) (on : Bool) : (State.setChannel i on s).chOn = s.chOn.set i.val on i.isLt := rfl
@[simp] theorem State.setChannel_chT (i : Chan) (on : Bool) : (State.setChannel i on s).chT = s.chT.set i.val s.now i.isLt := rfl
@[simp] theorem State.setChannel_onMs (i : Chan) (on : Bool) : (State.setChannel i on s).onMs = s.onMs := rfl
@[simp] theorem State.setChannel_offMs (i : Chan) (on : Bool) : (State.setChannel i on s).offMs = s.offMs := rfl
@[simp] theorem State.setChannel_outMask (i : Chan) (on : Bool) : (State.setChannel i on s).outMask = s.outMask := rfl
@[simp] theorem State.setChannel_nv (i : Chan) (on : Bool) : (State.setChannel i on s).nv = s.nv := rfl
@[simp] theorem State.setChannel_tx (i : Chan) (on : Bool) : (State.setChannel i on s).tx = s.tx := rfl
@[simp] theorem State.setChannel_now (i : Chan) (on : Bool) : (State.setChannel i on s).now = s.now := rfl
@[simp] theorem State.setChannel_pending (i : Chan) (on : Bool) : (State.setChannel i on s).pending = s.pending := rfl
@[simp] theorem State.setChannel_envIndex (i : Chan) (on : Bool) : (State.setChannel i on s).envIndex = s.envIndex := rfl
@[simp] theorem State.setChannel_boots (i : Chan) (on : Bool) : (State.setChannel i on s).boots = s.boots := rfl
@[simp] theorem State.setChannel_ret (i : Chan) (on : Bool) : (State.setChannel i on s).ret = s.ret := rfl

@[simp] theorem State.setOnMs_fdState (v : CfgWord) : (State.setOnMs v s).fdState = s.fdState := rfl
@[simp] theorem State.setOnMs_buf (v : CfgWord) : (State.setOnMs v s).buf = s.buf := rfl
@[simp] theorem State.setOnMs_len (v : CfgWord) : (State.setOnMs v s).len = s.len := rfl
@[simp] theorem State.setOnMs_tLastRx (v : CfgWord) : (State.setOnMs v s).tLastRx = s.tLastRx := rfl
@[simp] theorem State.setOnMs_chOn (v : CfgWord) : (State.setOnMs v s).chOn = s.chOn := rfl
@[simp] theorem State.setOnMs_chT (v : CfgWord) : (State.setOnMs v s).chT = s.chT := rfl
@[simp] theorem State.setOnMs_onMs (v : CfgWord) : (State.setOnMs v s).onMs = v := rfl
@[simp] theorem State.setOnMs_offMs (v : CfgWord) : (State.setOnMs v s).offMs = s.offMs := rfl
@[simp] theorem State.setOnMs_outMask (v : CfgWord) : (State.setOnMs v s).outMask = s.outMask := rfl
@[simp] theorem State.setOnMs_nv (v : CfgWord) : (State.setOnMs v s).nv = s.nv := rfl
@[simp] theorem State.setOnMs_tx (v : CfgWord) : (State.setOnMs v s).tx = s.tx := rfl
@[simp] theorem State.setOnMs_now (v : CfgWord) : (State.setOnMs v s).now = s.now := rfl
@[simp] theorem State.setOnMs_pending (v : CfgWord) : (State.setOnMs v s).pending = s.pending := rfl
@[simp] theorem State.setOnMs_envIndex (v : CfgWord) : (State.setOnMs v s).envIndex = s.envIndex := rfl
@[simp] theorem State.setOnMs_boots (v : CfgWord) : (State.setOnMs v s).boots = s.boots := rfl
@[simp] theorem State.setOnMs_ret (v : CfgWord) : (State.setOnMs v s).ret = s.ret := rfl

@[simp] theorem State.setOffMs_fdState (v : CfgWord) : (State.setOffMs v s).fdState = s.fdState := rfl
@[simp] theorem State.setOffMs_buf (v : CfgWord) : (State.setOffMs v s).buf = s.buf := rfl
@[simp] theorem State.setOffMs_len (v : CfgWord) : (State.setOffMs v s).len = s.len := rfl
@[simp] theorem State.setOffMs_tLastRx (v : CfgWord) : (State.setOffMs v s).tLastRx = s.tLastRx := rfl
@[simp] theorem State.setOffMs_chOn (v : CfgWord) : (State.setOffMs v s).chOn = s.chOn := rfl
@[simp] theorem State.setOffMs_chT (v : CfgWord) : (State.setOffMs v s).chT = s.chT := rfl
@[simp] theorem State.setOffMs_onMs (v : CfgWord) : (State.setOffMs v s).onMs = s.onMs := rfl
@[simp] theorem State.setOffMs_offMs (v : CfgWord) : (State.setOffMs v s).offMs = v := rfl
@[simp] theorem State.setOffMs_outMask (v : CfgWord) : (State.setOffMs v s).outMask = s.outMask := rfl
@[simp] theorem State.setOffMs_nv (v : CfgWord) : (State.setOffMs v s).nv = s.nv := rfl
@[simp] theorem State.setOffMs_tx (v : CfgWord) : (State.setOffMs v s).tx = s.tx := rfl
@[simp] theorem State.setOffMs_now (v : CfgWord) : (State.setOffMs v s).now = s.now := rfl
@[simp] theorem State.setOffMs_pending (v : CfgWord) : (State.setOffMs v s).pending = s.pending := rfl
@[simp] theorem State.setOffMs_envIndex (v : CfgWord) : (State.setOffMs v s).envIndex = s.envIndex := rfl
@[simp] theorem State.setOffMs_boots (v : CfgWord) : (State.setOffMs v s).boots = s.boots := rfl
@[simp] theorem State.setOffMs_ret (v : CfgWord) : (State.setOffMs v s).ret = s.ret := rfl

@[simp] theorem State.setOutMask_fdState (m : BitVec 8) : (State.setOutMask m s).fdState = s.fdState := rfl
@[simp] theorem State.setOutMask_buf (m : BitVec 8) : (State.setOutMask m s).buf = s.buf := rfl
@[simp] theorem State.setOutMask_len (m : BitVec 8) : (State.setOutMask m s).len = s.len := rfl
@[simp] theorem State.setOutMask_tLastRx (m : BitVec 8) : (State.setOutMask m s).tLastRx = s.tLastRx := rfl
@[simp] theorem State.setOutMask_chOn (m : BitVec 8) : (State.setOutMask m s).chOn = s.chOn := rfl
@[simp] theorem State.setOutMask_chT (m : BitVec 8) : (State.setOutMask m s).chT = s.chT := rfl
@[simp] theorem State.setOutMask_onMs (m : BitVec 8) : (State.setOutMask m s).onMs = s.onMs := rfl
@[simp] theorem State.setOutMask_offMs (m : BitVec 8) : (State.setOutMask m s).offMs = s.offMs := rfl
@[simp] theorem State.setOutMask_outMask (m : BitVec 8) : (State.setOutMask m s).outMask = m := rfl
@[simp] theorem State.setOutMask_nv (m : BitVec 8) : (State.setOutMask m s).nv = s.nv := rfl
@[simp] theorem State.setOutMask_tx (m : BitVec 8) : (State.setOutMask m s).tx = s.tx := rfl
@[simp] theorem State.setOutMask_now (m : BitVec 8) : (State.setOutMask m s).now = s.now := rfl
@[simp] theorem State.setOutMask_pending (m : BitVec 8) : (State.setOutMask m s).pending = s.pending := rfl
@[simp] theorem State.setOutMask_envIndex (m : BitVec 8) : (State.setOutMask m s).envIndex = s.envIndex := rfl
@[simp] theorem State.setOutMask_boots (m : BitVec 8) : (State.setOutMask m s).boots = s.boots := rfl
@[simp] theorem State.setOutMask_ret (m : BitVec 8) : (State.setOutMask m s).ret = s.ret := rfl

@[simp] theorem State.emit_fdState (seq : List Byte) : (State.emit seq s).fdState = s.fdState := rfl
@[simp] theorem State.emit_buf (seq : List Byte) : (State.emit seq s).buf = s.buf := rfl
@[simp] theorem State.emit_len (seq : List Byte) : (State.emit seq s).len = s.len := rfl
@[simp] theorem State.emit_tLastRx (seq : List Byte) : (State.emit seq s).tLastRx = s.tLastRx := rfl
@[simp] theorem State.emit_chOn (seq : List Byte) : (State.emit seq s).chOn = s.chOn := rfl
@[simp] theorem State.emit_chT (seq : List Byte) : (State.emit seq s).chT = s.chT := rfl
@[simp] theorem State.emit_onMs (seq : List Byte) : (State.emit seq s).onMs = s.onMs := rfl
@[simp] theorem State.emit_offMs (seq : List Byte) : (State.emit seq s).offMs = s.offMs := rfl
@[simp] theorem State.emit_outMask (seq : List Byte) : (State.emit seq s).outMask = s.outMask := rfl
@[simp] theorem State.emit_nv (seq : List Byte) : (State.emit seq s).nv = s.nv := rfl
@[simp] theorem State.emit_tx (seq : List Byte) : (State.emit seq s).tx = s.tx ++ seq := rfl
@[simp] theorem State.emit_now (seq : List Byte) : (State.emit seq s).now = s.now := rfl
@[simp] theorem State.emit_pending (seq : List Byte) : (State.emit seq s).pending = s.pending := rfl
@[simp] theorem State.emit_envIndex (seq : List Byte) : (State.emit seq s).envIndex = s.envIndex := rfl
@[simp] theorem State.emit_boots (seq : List Byte) : (State.emit seq s).boots = s.boots := rfl
@[simp] theorem State.emit_ret (seq : List Byte) : (State.emit seq s).ret = s.ret := rfl

@[simp] theorem State.setRet_fdState (r : Ret) : (State.setRet r s).fdState = s.fdState := rfl
@[simp] theorem State.setRet_buf (r : Ret) : (State.setRet r s).buf = s.buf := rfl
@[simp] theorem State.setRet_len (r : Ret) : (State.setRet r s).len = s.len := rfl
@[simp] theorem State.setRet_tLastRx (r : Ret) : (State.setRet r s).tLastRx = s.tLastRx := rfl
@[simp] theorem State.setRet_chOn (r : Ret) : (State.setRet r s).chOn = s.chOn := rfl
@[simp] theorem State.setRet_chT (r : Ret) : (State.setRet r s).chT = s.chT := rfl
@[simp] theorem State.setRet_onMs (r : Ret) : (State.setRet r s).onMs = s.onMs := rfl
@[simp] theorem State.setRet_offMs (r : Ret) : (State.setRet r s).offMs = s.offMs := rfl
@[simp] theorem State.setRet_outMask (r : Ret) : (State.setRet r s).outMask = s.outMask := rfl
@[simp] theorem State.setRet_nv (r : Ret) : (State.setRet r s).nv = s.nv := rfl
@[simp] theorem State.setRet_tx (r : Ret) : (State.setRet r s).tx = s.tx := rfl
@[simp] theorem State.setRet_now (r : Ret) : (State.setRet r s).now = s.now := rfl
@[simp] theorem State.setRet_pending (r : Ret) : (State.setRet r s).pending = s.pending := rfl
@[simp] theorem State.setRet_envIndex (r : Ret) : (State.setRet r s).envIndex = s.envIndex := rfl
@[simp] theorem State.setRet_boots (r : Ret) : (State.setRet r s).boots = s.boots := rfl
@[simp] theorem State.setRet_ret (r : Ret) : (State.setRet r s).ret = r := rfl

@[simp] theorem State.clearChannels_fdState : (State.clearChannels s).fdState = s.fdState := rfl
@[simp] theorem State.clearChannels_buf : (State.clearChannels s).buf = s.buf := rfl
@[simp] theorem State.clearChannels_len : (State.clearChannels s).len = s.len := rfl
@[simp] theorem State.clearChannels_tLastRx : (State.clearChannels s).tLastRx = s.tLastRx := rfl
@[simp] theorem State.clearChannels_chOn : (State.clearChannels s).chOn = Vector.replicate 8 false := rfl
@[simp] theorem State.clearChannels_chT : (State.clearChannels s).chT = Vector.replicate 8 s.now := rfl
@[simp] theorem State.clearChannels_onMs : (State.clearChannels s).onMs = s.onMs := rfl
@[simp] theorem State.clearChannels_offMs : (State.clearChannels s).offMs = s.offMs := rfl
@[simp] theorem State.clearChannels_outMask : (State.clearChannels s).outMask = s.outMask := rfl
@[simp] theorem State.clearChannels_nv : (State.clearChannels s).nv = s.nv := rfl
@[simp] theorem State.clearChannels_tx : (State.clearChannels s).tx = s.tx := rfl
@[simp] theorem State.clearChannels_now : (State.clearChannels s).now = s.now := rfl
@[simp] theorem State.clearChannels_pending : (State.clearChannels s).pending = s.pending := rfl
@[simp] theorem State.clearChannels_envIndex : (State.clearChannels s).envIndex = s.envIndex := rfl
@[simp] theorem State.clearChannels_boots : (State.clearChannels s).boots = s.boots := rfl
@[simp] theorem State.clearChannels_ret : (State.clearChannels s).ret = s.ret := rfl

@[simp] theorem State.abandonFrame_fdState : (State.abandonFrame s).fdState = .listening := rfl
@[simp] theorem State.abandonFrame_buf : (State.abandonFrame s).buf = s.buf := rfl
@[simp] theorem State.abandonFrame_len : (State.abandonFrame s).len = 0 := rfl
@[simp] theorem State.abandonFrame_tLastRx : (State.abandonFrame s).tLastRx = s.tLastRx := rfl
@[simp] theorem State.abandonFrame_chOn : (State.abandonFrame s).chOn = s.chOn := rfl
@[simp] theorem State.abandonFrame_chT : (State.abandonFrame s).chT = s.chT := rfl
@[simp] theorem State.abandonFrame_onMs : (State.abandonFrame s).onMs = s.onMs := rfl
@[simp] theorem State.abandonFrame_offMs : (State.abandonFrame s).offMs = s.offMs := rfl
@[simp] theorem State.abandonFrame_outMask : (State.abandonFrame s).outMask = s.outMask := rfl
@[simp] theorem State.abandonFrame_nv : (State.abandonFrame s).nv = s.nv := rfl
@[simp] theorem State.abandonFrame_tx : (State.abandonFrame s).tx = s.tx := rfl
@[simp] theorem State.abandonFrame_now : (State.abandonFrame s).now = s.now := rfl
@[simp] theorem State.abandonFrame_pending : (State.abandonFrame s).pending = s.pending := rfl
@[simp] theorem State.abandonFrame_envIndex : (State.abandonFrame s).envIndex = s.envIndex := rfl
@[simp] theorem State.abandonFrame_boots : (State.abandonFrame s).boots = s.boots := rfl
@[simp] theorem State.abandonFrame_ret : (State.abandonFrame s).ret = s.ret := rfl

@[simp] theorem State.powerCycle_fdState : (State.powerCycle s).fdState = s.fdState := rfl
@[simp] theorem State.powerCycle_buf : (State.powerCycle s).buf = powerOnBuf s.boots := rfl
@[simp] theorem State.powerCycle_len : (State.powerCycle s).len = s.len := rfl
@[simp] theorem State.powerCycle_tLastRx : (State.powerCycle s).tLastRx = s.tLastRx := rfl
@[simp] theorem State.powerCycle_chOn : (State.powerCycle s).chOn = s.chOn := rfl
@[simp] theorem State.powerCycle_chT : (State.powerCycle s).chT = s.chT := rfl
@[simp] theorem State.powerCycle_onMs : (State.powerCycle s).onMs = s.onMs := rfl
@[simp] theorem State.powerCycle_offMs : (State.powerCycle s).offMs = s.offMs := rfl
@[simp] theorem State.powerCycle_outMask : (State.powerCycle s).outMask = s.outMask := rfl
@[simp] theorem State.powerCycle_nv : (State.powerCycle s).nv = s.nv := rfl
@[simp] theorem State.powerCycle_tx : (State.powerCycle s).tx = s.tx := rfl
@[simp] theorem State.powerCycle_now : (State.powerCycle s).now = s.now := rfl
@[simp] theorem State.powerCycle_pending : (State.powerCycle s).pending = s.pending := rfl
@[simp] theorem State.powerCycle_envIndex : (State.powerCycle s).envIndex = s.envIndex := rfl
@[simp] theorem State.powerCycle_boots : (State.powerCycle s).boots = s.boots + 1 := rfl
@[simp] theorem State.powerCycle_ret : (State.powerCycle s).ret = s.ret := rfl

@[simp] theorem State.placeMove_fdState (m : EnvMove) : (State.placeMove m s).fdState = s.fdState := rfl
@[simp] theorem State.placeMove_buf (m : EnvMove) : (State.placeMove m s).buf = s.buf := rfl
@[simp] theorem State.placeMove_len (m : EnvMove) : (State.placeMove m s).len = s.len := rfl
@[simp] theorem State.placeMove_tLastRx (m : EnvMove) : (State.placeMove m s).tLastRx = s.tLastRx := rfl
@[simp] theorem State.placeMove_chOn (m : EnvMove) : (State.placeMove m s).chOn = s.chOn := rfl
@[simp] theorem State.placeMove_chT (m : EnvMove) : (State.placeMove m s).chT = s.chT := rfl
@[simp] theorem State.placeMove_onMs (m : EnvMove) : (State.placeMove m s).onMs = s.onMs := rfl
@[simp] theorem State.placeMove_offMs (m : EnvMove) : (State.placeMove m s).offMs = s.offMs := rfl
@[simp] theorem State.placeMove_outMask (m : EnvMove) : (State.placeMove m s).outMask = s.outMask := rfl
@[simp] theorem State.placeMove_nv (m : EnvMove) : (State.placeMove m s).nv = s.nv := rfl
@[simp] theorem State.placeMove_tx (m : EnvMove) : (State.placeMove m s).tx = s.tx := rfl
@[simp] theorem State.placeMove_now (m : EnvMove) : (State.placeMove m s).now = s.now := rfl
@[simp] theorem State.placeMove_pending (m : EnvMove) : (State.placeMove m s).pending = m :: s.pending := rfl
@[simp] theorem State.placeMove_envIndex (m : EnvMove) : (State.placeMove m s).envIndex = s.envIndex := rfl
@[simp] theorem State.placeMove_boots (m : EnvMove) : (State.placeMove m s).boots = s.boots := rfl
@[simp] theorem State.placeMove_ret (m : EnvMove) : (State.placeMove m s).ret = s.ret := rfl

end Sys2Proof.Machine
end

