-- ==== Sys2Proof/Laws/Ops.lean ====
section
/-! SUPPORT. One lemma per shared operation, saying once what it can do: the store's reads, writes and canonical form, the buffer, the
channel registers, and the taking of a move. -/

namespace Sys2Proof.Machine

/-! ### The non-volatile store -/

theorem Memory.read_eq_unlisted_of_wfFrom (p : Params) (m : Memory) (low off : Nat) (h : Memory.wfFrom p low m = true)
    (hlt : off < low) : Memory.read p m off = unlistedByte p off := by
  induction m generalizing low with
  | nil => rfl
  | cons c m ih =>
    obtain ⟨k, v⟩ := c
    simp only [Memory.wfFrom, Bool.and_eq_true, decide_eq_true_eq] at h
    have hk : k ≠ off := by omega
    simp only [Memory.read, hk, if_false]
    exact ih (k + 1) h.2 (by omega)

/-- A write in a canonical store, then a read of any offset (R52, R53): the byte written at its offset, every other byte as before. -/
theorem Memory.read_write_of_wfFrom (p : Params) (m : Memory) (low off a : Nat) (v : Byte) (h : Memory.wfFrom p low m = true) :
    Memory.read p (Memory.write p m off v) a = if a = off then v else Memory.read p m a := by
  induction m generalizing low with
  | nil =>
    by_cases hv : v = unlistedByte p off <;> by_cases ha : a = off <;>
      simp [Memory.write, Memory.read, hv, ha, eq_comm]
    all_goals aesop
  | cons c m ih =>
    obtain ⟨k, w⟩ := c
    simp only [Memory.wfFrom, Bool.and_eq_true, decide_eq_true_eq] at h
    have htail := Memory.read_eq_unlisted_of_wfFrom p m (k + 1)
    rcases Nat.lt_trichotomy off k with hlt | heq | hgt
    · have h1 : off ≠ k := by omega
      by_cases hv : v = unlistedByte p off
      · by_cases ha : a = off
        · subst ha
          have h2 : k ≠ a := by omega
          simp [Memory.write, Memory.read, hlt, hv, h2, htail a h.2 (by omega)]
        · simp [Memory.write, hlt, hv, ha]
      · by_cases ha : a = off
        · simp [Memory.write, Memory.read, hlt, hv, ha]
        · have h3 : off ≠ a := fun e => ha e.symm
          simp [Memory.write, Memory.read, hlt, hv, ha, h3]
    · subst heq
      by_cases hv : v = unlistedByte p off
      · by_cases ha : a = off
        · subst ha
          simp [Memory.write, hv, htail a h.2 (by omega)]
        · have h3 : off ≠ a := fun e => ha e.symm
          simp [Memory.write, Memory.read, hv, ha, h3]
      · by_cases ha : a = off
        · simp [Memory.write, Memory.read, hv, ha]
        · have h3 : off ≠ a := fun e => ha e.symm
          simp [Memory.write, Memory.read, hv, ha, h3]
    · have h1 : ¬ off < k := by omega
      have h2 : off ≠ k := by omega
      have h3 : k ≠ off := fun e => h2 e.symm
      simp only [Memory.write, h1, h2, if_false, Memory.read, ih (k + 1) h.2]
      by_cases hka : k = a
      · subst hka
        simp [h3]
      · simp [hka]

/-- `MemRead` after `MemWrite` in a canonical store (R52, R53). -/
theorem Memory.read_write (p : Params) (m : Memory) (off a : Nat) (v : Byte) (h : Memory.wf p m = true) :
    Memory.read p (Memory.write p m off v) a = if a = off then v else Memory.read p m a :=
  Memory.read_write_of_wfFrom p m 0 off a v h

theorem Memory.wfFrom_write (p : Params) (m : Memory) (low off : Nat) (v : Byte) (h : Memory.wfFrom p low m = true)
    (hlow : low ≤ off) (hoff : off < p.nvSize) : Memory.wfFrom p low (Memory.write p m off v) = true := by
  induction m generalizing low with
  | nil => by_cases hv : v = unlistedByte p off <;> simp [Memory.write, Memory.wfFrom, hv, hlow, hoff]
  | cons c m ih =>
    obtain ⟨k, w⟩ := c
    simp only [Memory.wfFrom, Bool.and_eq_true, decide_eq_true_eq] at h
    obtain ⟨⟨⟨hk, hkn⟩, hw⟩, hm⟩ := h
    have widen : ∀ lo hi, lo ≤ hi → ∀ m, Memory.wfFrom p hi m = true → Memory.wfFrom p lo m = true := by
      intro lo hi hle m hm
      cases m with
      | nil => rfl
      | cons c m =>
        simp only [Memory.wfFrom, Bool.and_eq_true, decide_eq_true_eq] at hm ⊢
        exact ⟨⟨⟨by omega, hm.1.1.2⟩, hm.1.2⟩, hm.2⟩
    rcases Nat.lt_trichotomy off k with hlt | heq | hgt
    · have h5 : off + 1 ≤ k := by omega
      by_cases hv : v = unlistedByte p off
      · simp [Memory.write, hlt, hv, Memory.wfFrom, hk, hkn, hw, hm]
      · simp [Memory.write, hlt, hv, Memory.wfFrom, hlow, hoff, h5, hkn, hw, hm]
    · subst heq
      by_cases hv : v = unlistedByte p off
      · simp only [Memory.write, Nat.lt_irrefl, if_false, if_true, hv]
        exact widen low (off + 1) (by omega) m hm
      · simp [Memory.write, Memory.wfFrom, hv, hlow, hoff, hm]
    · have h1 : ¬ off < k := by omega
      have h2 : off ≠ k := by omega
      simp [Memory.write, h1, h2, Memory.wfFrom, hk, hkn, hw, ih (k + 1) hm (by omega)]

/-- A write at an offset that exists keeps the canonical form. -/
theorem Memory.wf_write (p : Params) (m : Memory) (off : Nat) (v : Byte) (h : Memory.wf p m = true) (hoff : off < p.nvSize) :
    Memory.wf p (Memory.write p m off v) = true :=
  Memory.wfFrom_write p m 0 off v h (Nat.zero_le _) hoff

/-- The four offsets the block uses exist (R18). -/
theorem four_le_nvSize (p : Params) : 4 ≤ p.nvSize := Nat.le_add_left 4 p.nvExtra

/-- The store after reset is in canonical form. -/
theorem reset_nv_wf : Memory.wf Config.device State.reset.nv = true := rfl

/-! ### The frame buffer -/

/-- What storing a byte puts at each place (R55). -/
theorem getElem_bufPut (buf : Vector Byte 32) (len : BitVec 6) (b : Byte) (i : Nat) (h : i < 32) :
    (bufPut buf len b)[i] = if i = len.toNat then b else buf[i] := by
  unfold bufPut
  by_cases hl : len.toNat < 32
  · simp only [hl, dite_true, Vector.getElem_set]
    simp [eq_comm]
  · have : i ≠ len.toNat := by omega
    simp [hl, this]

/-- What storing a byte does to `LEN` (R37). -/
theorem toNat_lenNext (len : BitVec 6) : (lenNext len).toNat = if len.toNat < 32 then len.toNat + 1 else len.toNat := by
  unfold lenNext
  split
  · rw [BitVec.toNat_add]
    simp only [BitVec.ofNat_eq_ofNat, BitVec.toNat_ofNat]
    omega
  · rfl

/-- The free contents of the buffer after a power cycle (R27; log 4). -/
theorem getElem_powerOnBuf (boot : Nat) (i : Fin 32) : (powerOnBuf boot)[i] = Config.bufAtPowerOn boot i.val := by
  simp [powerOnBuf]

/-- The stored frame has `LEN` bytes (R126), where `LEN` is in its range. -/
theorem length_frame (s : State) (h : s.len.toNat ≤ 32) : s.frame.length = s.len.toNat := by
  simp [State.frame, h]

/-! ### The channel registers -/

/-- The bit of each channel after a transition of channel `i` (R31, R135). -/
theorem getElem_setChannel_chOn (s : State) (i j : Chan) (on : Bool) :
    (s.setChannel i on).chOn[j] = if j = i then on else s.chOn[j] := by
  simp only [State.setChannel_chOn, Fin.getElem_fin, Vector.getElem_set, Fin.ext_iff]
  simp [eq_comm]

/-- The timestamp of each channel after a transition of channel `i` (R31, R135). -/
theorem getElem_setChannel_chT (s : State) (i j : Chan) (on : Bool) :
    (s.setChannel i on).chT[j] = if j = i then s.now else s.chT[j] := by
  simp only [State.setChannel_chT, Fin.getElem_fin, Vector.getElem_set, Fin.ext_iff]
  simp [eq_comm]

/-- REQON touches only the channel registers (R136). -/
theorem reqOn_shape (p : Params) (i : Chan) (s : State) : reqOn p i s = { s with chOn := (reqOn p i s).chOn, chT := (reqOn p i s).chT } := by
  unfold reqOn
  split <;> rfl

/-- One lane of POLLEXP touches only the channel registers (R137). -/
theorem expire_shape (p : Params) (i : Chan) (s : State) : expire p i s = { s with chOn := (expire p i s).chOn, chT := (expire p i s).chT } := by
  unfold expire
  split <;> rfl

/-- A sequence of operations that touch only the channel registers touches only these. -/
theorem foldl_channel_shape (f : State → Chan → State)
    (hf : ∀ s i, f s i = { s with chOn := (f s i).chOn, chT := (f s i).chT }) (l : List Chan) (s : State) :
    l.foldl f s = { s with chOn := (l.foldl f s).chOn, chT := (l.foldl f s).chT } := by
  induction l generalizing s with
  | nil => rfl
  | cons i l ih =>
    rw [List.foldl_cons, ih (f s i), hf s i]

/-- CHMASK touches only the channel registers (R124). -/
theorem chMask_shape (p : Params) (command : Byte) (s : State) :
    chMask p command s = { s with chOn := (chMask p command s).chOn, chT := (chMask p command s).chT } :=
  foldl_channel_shape _ (fun s i => by
    by_cases h : requested command i
    · simp only [h, if_true]; exact reqOn_shape p i s
    · simp [h]) channels s

/-- POLLEXP touches only the channel registers (R137). -/
theorem pollExp_shape (p : Params) (s : State) : pollExp p s = { s with chOn := (pollExp p s).chOn, chT := (pollExp p s).chT } :=
  foldl_channel_shape _ (fun s i => expire_shape p i s) channels s

/-! ### What the channel operations leave alone, field by field -/

@[simp] theorem reqOn_fdState (p : Params) (i : Chan) (s : State) : (reqOn p i s).fdState = s.fdState := by rw [reqOn_shape]
@[simp] theorem reqOn_buf (p : Params) (i : Chan) (s : State) : (reqOn p i s).buf = s.buf := by rw [reqOn_shape]
@[simp] theorem reqOn_len (p : Params) (i : Chan) (s : State) : (reqOn p i s).len = s.len := by rw [reqOn_shape]
@[simp] theorem reqOn_tLastRx (p : Params) (i : Chan) (s : State) : (reqOn p i s).tLastRx = s.tLastRx := by rw [reqOn_shape]
@[simp] theorem reqOn_onMs (p : Params) (i : Chan) (s : State) : (reqOn p i s).onMs = s.onMs := by rw [reqOn_shape]
@[simp] theorem reqOn_offMs (p : Params) (i : Chan) (s : State) : (reqOn p i s).offMs = s.offMs := by rw [reqOn_shape]
@[simp] theorem reqOn_outMask (p : Params) (i : Chan) (s : State) : (reqOn p i s).outMask = s.outMask := by rw [reqOn_shape]
@[simp] theorem reqOn_nv (p : Params) (i : Chan) (s : State) : (reqOn p i s).nv = s.nv := by rw [reqOn_shape]
@[simp] theorem reqOn_tx (p : Params) (i : Chan) (s : State) : (reqOn p i s).tx = s.tx := by rw [reqOn_shape]
@[simp] theorem reqOn_now (p : Params) (i : Chan) (s : State) : (reqOn p i s).now = s.now := by rw [reqOn_shape]
@[simp] theorem reqOn_pending (p : Params) (i : Chan) (s : State) : (reqOn p i s).pending = s.pending := by rw [reqOn_shape]
@[simp] theorem reqOn_envIndex (p : Params) (i : Chan) (s : State) : (reqOn p i s).envIndex = s.envIndex := by rw [reqOn_shape]
@[simp] theorem reqOn_boots (p : Params) (i : Chan) (s : State) : (reqOn p i s).boots = s.boots := by rw [reqOn_shape]
@[simp] theorem reqOn_ret (p : Params) (i : Chan) (s : State) : (reqOn p i s).ret = s.ret := by rw [reqOn_shape]

@[simp] theorem expire_fdState (p : Params) (i : Chan) (s : State) : (expire p i s).fdState = s.fdState := by rw [expire_shape]
@[simp] theorem expire_buf (p : Params) (i : Chan) (s : State) : (expire p i s).buf = s.buf := by rw [expire_shape]
@[simp] theorem expire_len (p : Params) (i : Chan) (s : State) : (expire p i s).len = s.len := by rw [expire_shape]
@[simp] theorem expire_tLastRx (p : Params) (i : Chan) (s : State) : (expire p i s).tLastRx = s.tLastRx := by rw [expire_shape]
@[simp] theorem expire_onMs (p : Params) (i : Chan) (s : State) : (expire p i s).onMs = s.onMs := by rw [expire_shape]
@[simp] theorem expire_offMs (p : Params) (i : Chan) (s : State) : (expire p i s).offMs = s.offMs := by rw [expire_shape]
@[simp] theorem expire_outMask (p : Params) (i : Chan) (s : State) : (expire p i s).outMask = s.outMask := by rw [expire_shape]
@[simp] theorem expire_nv (p : Params) (i : Chan) (s : State) : (expire p i s).nv = s.nv := by rw [expire_shape]
@[simp] theorem expire_tx (p : Params) (i : Chan) (s : State) : (expire p i s).tx = s.tx := by rw [expire_shape]
@[simp] theorem expire_now (p : Params) (i : Chan) (s : State) : (expire p i s).now = s.now := by rw [expire_shape]
@[simp] theorem expire_pending (p : Params) (i : Chan) (s : State) : (expire p i s).pending = s.pending := by rw [expire_shape]
@[simp] theorem expire_envIndex (p : Params) (i : Chan) (s : State) : (expire p i s).envIndex = s.envIndex := by rw [expire_shape]
@[simp] theorem expire_boots (p : Params) (i : Chan) (s : State) : (expire p i s).boots = s.boots := by rw [expire_shape]
@[simp] theorem expire_ret (p : Params) (i : Chan) (s : State) : (expire p i s).ret = s.ret := by rw [expire_shape]

@[simp] theorem chMask_fdState (p : Params) (c : Byte) (s : State) : (chMask p c s).fdState = s.fdState := by rw [chMask_shape]
@[simp] theorem chMask_buf (p : Params) (c : Byte) (s : State) : (chMask p c s).buf = s.buf := by rw [chMask_shape]
@[simp] theorem chMask_len (p : Params) (c : Byte) (s : State) : (chMask p c s).len = s.len := by rw [chMask_shape]
@[simp] theorem chMask_tLastRx (p : Params) (c : Byte) (s : State) : (chMask p c s).tLastRx = s.tLastRx := by rw [chMask_shape]
@[simp] theorem chMask_onMs (p : Params) (c : Byte) (s : State) : (chMask p c s).onMs = s.onMs := by rw [chMask_shape]
@[simp] theorem chMask_offMs (p : Params) (c : Byte) (s : State) : (chMask p c s).offMs = s.offMs := by rw [chMask_shape]
@[simp] theorem chMask_outMask (p : Params) (c : Byte) (s : State) : (chMask p c s).outMask = s.outMask := by rw [chMask_shape]
@[simp] theorem chMask_nv (p : Params) (c : Byte) (s : State) : (chMask p c s).nv = s.nv := by rw [chMask_shape]
@[simp] theorem chMask_tx (p : Params) (c : Byte) (s : State) : (chMask p c s).tx = s.tx := by rw [chMask_shape]
@[simp] theorem chMask_now (p : Params) (c : Byte) (s : State) : (chMask p c s).now = s.now := by rw [chMask_shape]
@[simp] theorem chMask_pending (p : Params) (c : Byte) (s : State) : (chMask p c s).pending = s.pending := by rw [chMask_shape]
@[simp] theorem chMask_envIndex (p : Params) (c : Byte) (s : State) : (chMask p c s).envIndex = s.envIndex := by rw [chMask_shape]
@[simp] theorem chMask_boots (p : Params) (c : Byte) (s : State) : (chMask p c s).boots = s.boots := by rw [chMask_shape]
@[simp] theorem chMask_ret (p : Params) (c : Byte) (s : State) : (chMask p c s).ret = s.ret := by rw [chMask_shape]

@[simp] theorem pollExp_fdState (p : Params) (s : State) : (pollExp p s).fdState = s.fdState := by rw [pollExp_shape]
@[simp] theorem pollExp_buf (p : Params) (s : State) : (pollExp p s).buf = s.buf := by rw [pollExp_shape]
@[simp] theorem pollExp_len (p : Params) (s : State) : (pollExp p s).len = s.len := by rw [pollExp_shape]
@[simp] theorem pollExp_tLastRx (p : Params) (s : State) : (pollExp p s).tLastRx = s.tLastRx := by rw [pollExp_shape]
@[simp] theorem pollExp_onMs (p : Params) (s : State) : (pollExp p s).onMs = s.onMs := by rw [pollExp_shape]
@[simp] theorem pollExp_offMs (p : Params) (s : State) : (pollExp p s).offMs = s.offMs := by rw [pollExp_shape]
@[simp] theorem pollExp_outMask (p : Params) (s : State) : (pollExp p s).outMask = s.outMask := by rw [pollExp_shape]
@[simp] theorem pollExp_nv (p : Params) (s : State) : (pollExp p s).nv = s.nv := by rw [pollExp_shape]
@[simp] theorem pollExp_tx (p : Params) (s : State) : (pollExp p s).tx = s.tx := by rw [pollExp_shape]
@[simp] theorem pollExp_now (p : Params) (s : State) : (pollExp p s).now = s.now := by rw [pollExp_shape]
@[simp] theorem pollExp_pending (p : Params) (s : State) : (pollExp p s).pending = s.pending := by rw [pollExp_shape]
@[simp] theorem pollExp_envIndex (p : Params) (s : State) : (pollExp p s).envIndex = s.envIndex := by rw [pollExp_shape]
@[simp] theorem pollExp_boots (p : Params) (s : State) : (pollExp p s).boots = s.boots := by rw [pollExp_shape]
@[simp] theorem pollExp_ret (p : Params) (s : State) : (pollExp p s).ret = s.ret := by rw [pollExp_shape]

/-! ### The environment's moves -/

/-- A placed move is the one that the next step takes (R166). -/
theorem nextMove_of_pending {s : State} {m : EnvMove} {rest : List EnvMove} (h : s.pending = m :: rest) : s.nextMove = m := by
  simp [State.nextMove, h]

/-- Taking a placed move. -/
theorem takeMove_of_pending {s : State} {m : EnvMove} {rest : List EnvMove} (h : s.pending = m :: rest) :
    s.takeMove = { s with pending := rest } := by
  simp [State.takeMove, h]

/-- With no move placed the environment makes a free one. -/
theorem nextMove_of_empty {s : State} (h : s.pending = []) : s.nextMove = Config.envMove s.envIndex := by
  simp [State.nextMove, h]

/-- Taking a free move. -/
theorem takeMove_of_empty {s : State} (h : s.pending = []) : s.takeMove = { s with envIndex := s.envIndex + 1 } := by
  simp [State.takeMove, h]

/-! ### The operations as a whole -/

/-- Every operation answers a next state, but for NVRD and NVWR at an offset that does not exist (R170; log 11). -/
theorem exec_next_or_nvOffset (i : Instr) (s : State) : (∃ t, exec i s = .next t) ∨ exec i s = .fault .nvOffset := by
  cases i
  case nvRd off => by_cases h : off < Config.device.nvSize <;> simp [exec, execNvRd, h]
  case nvWr off v => by_cases h : off < Config.device.nvSize <;> simp [exec, execNvWr, h]
  all_goals exact .inl ⟨_, rfl⟩

end Sys2Proof.Machine
end

