-- ==== Sys2Proof/Laws/Lanes.lean ====
section
/-! SUPPORT. The tests and the channel operations in numbers: what elapsed time is, when a request is accepted and a channel expires, and
what each channel operation does to each lane (R136 to R139). -/

namespace Sys2Proof.Machine

/-! ### Numbers -/

/-- The device's counter has at least 16 bits (R15). -/
theorem lt_timeMod (p : Params) {x : Nat} (h : x < 2 ^ CFG_W) : x < 2 ^ p.timeW :=
  Nat.lt_of_lt_of_le h (Nat.pow_le_pow_right (by omega) (Nat.le_add_right _ _))

/-- The wrapped elapsed time of the model is that of the statements (R21, R160). -/
theorem elapsed_eq (s : State) (t : Time) : s.elapsed Config.device t = elapsedMs s.now t := by
  unfold State.elapsed Params.subTime elapsedMs sampleOf Params.timeMod
  have hM : 0 < 2 ^ Config.device.timeW := Nat.two_pow_pos _
  generalize 2 ^ Config.device.timeW = M at hM
  have h1 := Nat.mod_lt s.now hM
  have h2 := Nat.mod_lt t hM
  have key : ((s.now : Int) - (t : Int)) % (M : Int) = (((s.now % M + (M - t % M)) % M : Nat) : Int) := by
    rw [Int.sub_emod]
    push_cast [Nat.le_of_lt h2]
    have : ((s.now : Int) % M + (M - (t : Int) % M)) = ((s.now : Int) % M - (t : Int) % M) + M := by ring
    rw [this, Int.add_emod_right]
  rw [key, Int.toNat_natCast]

/-- What the counter shows of what it shows. -/
@[simp] theorem sampleOf_sampleOf (t : Time) : sampleOf (sampleOf t) = sampleOf t := Nat.mod_mod _ _

/-- Elapsed times see only what the counter shows. -/
@[simp] theorem elapsedMs_sampleOf (now t : Time) : elapsedMs (sampleOf now) t = elapsedMs now t := by
  simp [elapsedMs]

@[simp] theorem elapsedMs_sampleOf_right (now t : Time) : elapsedMs now (sampleOf t) = elapsedMs now t := by
  simp [elapsedMs]

/-- Where the true interval is below the counter's range, the wrapped one is the true one (R200). -/
theorem elapsedMs_of_lt {now t : Time} (h : t ≤ now) (hlt : now - t < 2 ^ Config.device.timeW) : elapsedMs now t = now - t := by
  unfold elapsedMs sampleOf
  have hM : 0 < 2 ^ Config.device.timeW := Nat.two_pow_pos _
  generalize 2 ^ Config.device.timeW = M at hM hlt
  have h2 := Nat.mod_lt t hM
  have e : ∀ x y : Nat, y < M → x + (M - y) + y = x + M := by intro x y hy; omega
  have key : (now % M + (M - t % M)) % M = (now - t) % M := by
    apply Nat.ModEq.add_right_cancel' (t % M)
    show (now % M + (M - t % M) + t % M) % M = (now - t + t % M) % M
    rw [e _ _ h2, Nat.add_mod_right, Nat.mod_mod, Nat.add_mod_mod, Nat.sub_add_cancel h]
  rw [key, Nat.mod_eq_of_lt hlt]

/-- A sample is a value of `TIME_W` bits. -/
theorem sampleOf_lt (t : Time) : sampleOf t < 2 ^ Config.device.timeW := Nat.mod_lt _ (Nat.two_pow_pos _)

/-- The sample that a step of the device takes. -/
theorem sample_eq (now : Time) (s : State) : s.sample Config.device now = { s with now := sampleOf now } := rfl

/-- The scaled configuration value does not wrap (R80, R160). -/
theorem scaleCfg_toNat (command : Byte) : (scaleCfg command).toNat = 10 * command.toNat := by
  have := command.isLt
  simp only [scaleCfg, CFG_SCALE, BitVec.toNat_mul, BitVec.toNat_setWidth]
  simp
  omega

/-- The own address as a number (R12). -/
theorem ownByte_toNat (p : Params) : p.ownByte.toNat = p.ownAddr.val := by
  have := p.ownAddr.isLt
  simp only [Params.ownByte, BitVec.toNat_ofNat]
  omega

/-- The own address is no broadcast address (R12). -/
theorem ownByte_ne (p : Params) : p.ownByte ≠ ADDR_SET_ON ∧ p.ownByte ≠ ADDR_SET_OFF := by
  have h := ownByte_toNat p
  have := p.ownAddr.isLt
  constructor <;> (intro e; rw [e] at h; simp [ADDR_SET_ON, ADDR_SET_OFF] at h; omega)

/-- HEXBYTE of the digits of a byte is the byte (R85, R92). -/
theorem hexByte_hexDigits : ∀ b : Byte, hexByte (hexDigit (b.extractLsb' 4 4)) (hexDigit (b.extractLsb' 0 4)) = b := by decide

/-! ### The tests -/

/-- When a request is accepted (R136). -/
theorem requestAccepted_iff (s : State) (i : Chan) :
    s.requestAccepted Config.device i = true ↔ s.chOn[i] = false ∧ elapsedMs s.now s.chT[i] ≥ s.offMs.toNat := by
  simp only [State.requestAccepted, Bool.and_eq_true, Bool.not_eq_true', decide_eq_true_eq, ge_iff_le, zextTime,
    elapsed_eq]

/-- When a channel is due to expire (R137). -/
theorem expiryDue_iff (s : State) (i : Chan) :
    s.expiryDue Config.device i = true ↔ s.chOn[i] = true ∧ elapsedMs s.now s.chT[i] > s.onMs.toNat := by
  simp only [State.expiryDue, Bool.and_eq_true, decide_eq_true_eq, gt_iff_lt, zextTime, elapsed_eq]

/-- When a frame in progress is stalled (R106). -/
theorem timeoutDue_iff (s : State) :
    s.timeoutDue Config.device = true ↔ s.fdState = .accumulating ∧ elapsedMs s.now s.tLastRx > 1000 := by
  simp only [State.timeoutDue, Bool.and_eq_true, beq_iff_eq, decide_eq_true_eq, elapsed_eq, FRAME_TIMEOUT_MS]

/-! ### Lanes -/

theorem mem_channels (i : Chan) : i ∈ channels := by
  revert i
  decide

theorem nodup_channels : channels.Nodup := by decide

/-- REQON on every lane (R136). -/
theorem reqOn_lane (i j : Chan) (s : State) :
    ((reqOn Config.device i s).chOn[j], (reqOn Config.device i s).chT[j]) =
      if j = i ∧ s.chOn[i] = false ∧ elapsedMs s.now s.chT[i] ≥ s.offMs.toNat then (true, s.now) else (s.chOn[j], s.chT[j]) := by
  unfold reqOn
  by_cases h : s.requestAccepted Config.device i = true
  · have h' := (requestAccepted_iff s i).1 h
    simp only [h, if_true, getElem_setChannel_chOn, getElem_setChannel_chT]
    by_cases hj : j = i <;> simp_all
  · have h' := mt (requestAccepted_iff s i).2 h
    have hn : ¬(j = i ∧ s.chOn[i] = false ∧ elapsedMs s.now s.chT[i] ≥ s.offMs.toNat) := fun e => h' e.2
    simp only [h]
    rw [if_neg hn]
    rfl

/-- One lane of POLLEXP, on every lane (R137). -/
theorem expire_lane (i j : Chan) (s : State) :
    ((expire Config.device i s).chOn[j], (expire Config.device i s).chT[j]) =
      if j = i ∧ s.chOn[i] = true ∧ elapsedMs s.now s.chT[i] > s.onMs.toNat then (false, s.now) else (s.chOn[j], s.chT[j]) := by
  unfold expire
  by_cases h : s.expiryDue Config.device i = true
  · have h' := (expiryDue_iff s i).1 h
    simp only [h, if_true, getElem_setChannel_chOn, getElem_setChannel_chT]
    by_cases hj : j = i <;> simp_all
  · have h' := mt (expiryDue_iff s i).2 h
    have hn : ¬(j = i ∧ s.chOn[i] = true ∧ elapsedMs s.now s.chT[i] > s.onMs.toNat) := fun e => h' e.2
    simp only [h]
    rw [if_neg hn]
    rfl

/-- A sequence of operations, each on a lane of its own, does to every lane what that lane's operation does in the state at the start: the
order does not matter (R139). -/
theorem foldl_lane (f : State → Chan → State)
    (shape : ∀ s i, f s i = { s with chOn := (f s i).chOn, chT := (f s i).chT })
    (g : State → Chan → Bool × Time)
    (lane : ∀ s i j, ((f s i).chOn[j], (f s i).chT[j]) = if j = i then g s i else (s.chOn[j], s.chT[j]))
    (loc : ∀ s u i, s.chOn[i] = u.chOn[i] → s.chT[i] = u.chT[i] → s.now = u.now → s.onMs = u.onMs → s.offMs = u.offMs →
      g s i = g u i)
    (l : List Chan) (hl : l.Nodup) (s : State) (j : Chan) :
    ((l.foldl f s).chOn[j], (l.foldl f s).chT[j]) = if j ∈ l then g s j else (s.chOn[j], s.chT[j]) := by
  induction l generalizing s with
  | nil => simp
  | cons i l ih =>
    rw [List.nodup_cons] at hl
    rw [List.foldl_cons, ih hl.2]
    have hij := lane s i j
    have hsh := shape s i
    by_cases hji : j = i
    · subst hji
      simp only [hl.1, if_false, List.mem_cons, true_or, if_true]
      simpa using hij
    · simp only [hji, if_false, Prod.mk.injEq] at hij
      simp only [List.mem_cons, hji, false_or]
      have : g (f s i) j = g s j := loc _ _ _ hij.1 hij.2 (by rw [hsh]) (by rw [hsh]) (by rw [hsh])
      rw [this, hij.1, hij.2]

/-- CHMASK on every lane (R124). -/
theorem chMask_lane (m : Byte) (s : State) (i : Chan) :
    ((chMask Config.device m s).chOn[i], (chMask Config.device m s).chT[i]) =
      if m.getLsbD i.val = true ∧ s.chOn[i] = false ∧ elapsedMs s.now s.chT[i] ≥ s.offMs.toNat then (true, s.now)
      else (s.chOn[i], s.chT[i]) := by
  unfold chMask
  rw [foldl_lane _ _ (fun s i =>
    if m.getLsbD i.val = true ∧ s.chOn[i] = false ∧ elapsedMs s.now s.chT[i] ≥ s.offMs.toNat then (true, s.now)
    else (s.chOn[i], s.chT[i])) _ _ channels nodup_channels]
  · simp [mem_channels]
  · intro s i
    by_cases h : requested m i
    · simp only [h, if_true]; exact reqOn_shape _ i s
    · simp [h]
  · intro s i j
    unfold requested
    by_cases h : m.getLsbD i.val = true
    · simp only [h, if_true, reqOn_lane]
      by_cases hj : j = i
      · subst hj; simp
      · simp [hj]
    · simp only [h]
      by_cases hj : j = i
      · subst hj; simp
      · simp [hj]
  · intro s u i h1 h2 h3 h4 h5
    simp only [h1, h2, h3, h5]

/-- POLLEXP on every lane (R137). -/
theorem pollExp_lane (s : State) (i : Chan) :
    ((pollExp Config.device s).chOn[i], (pollExp Config.device s).chT[i]) =
      if s.chOn[i] = true ∧ elapsedMs s.now s.chT[i] > s.onMs.toNat then (false, s.now) else (s.chOn[i], s.chT[i]) := by
  unfold pollExp
  rw [foldl_lane _ _ (fun s i =>
    if s.chOn[i] = true ∧ elapsedMs s.now s.chT[i] > s.onMs.toNat then (false, s.now) else (s.chOn[i], s.chT[i])) _ _
    channels nodup_channels]
  · simp [mem_channels]
  · exact fun s i => expire_shape _ i s
  · intro s i j
    simp only [expire_lane]
    by_cases hj : j = i
    · subst hj; simp
    · simp [hj]
  · intro s u i h1 h2 h3 h4 h5
    simp only [h1, h2, h3, h4]

/-- Each bit of CURMASK's mask (R138). -/
theorem maskOf_getLsbD (v : Vector Bool 8) (i : Chan) : (maskOf v).getLsbD i.val = v[i] := by
  have key : ∀ b : Bool, ∀ i j : Chan, (maskBit b i).getLsbD j.val = (b && decide (i = j)) := by decide
  simp only [maskOf, channels, List.foldl, BitVec.getLsbD_or, key]
  fin_cases i <;> simp

end Sys2Proof.Machine
end

