-- ==== Sys2Proof/Laws/PerInstr.lean ====
section
/-! SUPPORT. Facts about every operation as syntax, one lemma per constructor. -/

namespace Sys2Proof.Laws.WireForm

/-- What an operation looks like on the wire (R75, R76, R92): one byte, or a canonical frame of six, or nothing. -/
def Statement (i : Instr) : Prop :=
  ∀ p : Params, match encode p i with
    | none => True
    | some w => w.length = 1 ∨ (w.length = 6 ∧ w.head? = some START_MARKER ∧ w.getLast? = some END_MARKER)

theorem fdStart : Statement .fdStart := fun _ => .inl rfl
theorem fdSkip (b : Byte) : Statement (.fdSkip b) := fun _ => .inl rfl
theorem fdEnd : Statement .fdEnd := fun _ => .inl rfl
theorem fdData (b : Byte) : Statement (.fdData b) := fun _ => .inl rfl
theorem fdDrop (b : Byte) : Statement (.fdDrop b) := fun _ => .inl rfl
theorem fdTimeout : Statement .fdTimeout := fun _ => trivial
theorem setOn (command : Byte) : Statement (.setOn command) := fun _ => .inr ⟨rfl, rfl, rfl⟩
theorem setOff (command : Byte) : Statement (.setOff command) := fun _ => .inr ⟨rfl, rfl, rfl⟩
theorem chMask (command : Byte) : Statement (.chMask command) := fun _ => .inr ⟨rfl, rfl, rfl⟩
theorem pass (address command : Byte) : Statement (.pass address command) := fun _ => .inr ⟨rfl, rfl, rfl⟩
theorem fdRx (b : Byte) : Statement (.fdRx b) := fun _ => trivial
theorem hexNib (c : Byte) : Statement (.hexNib c) := fun _ => trivial
theorem hexByte (c0 c1 : Byte) : Statement (.hexByte c0 c1) := fun _ => trivial
theorem msgDec : Statement .msgDec := fun _ => trivial
theorem dispatch : Statement .dispatch := fun _ => trivial
theorem relay : Statement .relay := fun _ => trivial
theorem reqOn (i : Chan) : Statement (.reqOn i) := fun _ => trivial
theorem pollExp : Statement .pollExp := fun _ => trivial
theorem curMask : Statement .curMask := fun _ => trivial
theorem nvRd (off : Nat) : Statement (.nvRd off) := fun _ => trivial
theorem nvWr (off : Nat) (v : Byte) : Statement (.nvWr off v) := fun _ => trivial
theorem cfgLoad : Statement .cfgLoad := fun _ => trivial
theorem cfgSaveOn (command : Byte) : Statement (.cfgSaveOn command) := fun _ => trivial
theorem cfgSaveOff (command : Byte) : Statement (.cfgSaveOff command) := fun _ => trivial
theorem cycle (now : Time) (rx : List Byte) : Statement (.cycle now rx) := fun _ => trivial
theorem init (now : Time) : Statement (.init now) := fun _ => trivial

end Sys2Proof.Laws.WireForm
end

