-- ==== Sys2Proof/Laws/Steps.lean ====
section
/-! SUPPORT. What the routing of a message, a received byte, a cycle and a step can do, each said once: later proofs cite these and do not
unfold the operations. -/

namespace Sys2Proof.Machine

/-! ### Configuration writes and routing -/

/-- CFGSAVE.ON keeps the store's canonical form (R147). -/
theorem cfgSaveOn_wf (p : Params) (command : Byte) (s : State) (h : Memory.wf p s.nv = true) :
    Memory.wf p (cfgSaveOn p command s).nv = true := by
  have := four_le_nvSize p
  exact Memory.wf_write _ _ _ _ (Memory.wf_write _ _ _ _ h (by simp [NV_ON_FLAG]; omega)) (by simp [NV_ON_VAL]; omega)

/-- CFGSAVE.OFF keeps the store's canonical form (R148). -/
theorem cfgSaveOff_wf (p : Params) (command : Byte) (s : State) (h : Memory.wf p s.nv = true) :
    Memory.wf p (cfgSaveOff p command s).nv = true := by
  have := four_le_nvSize p
  exact Memory.wf_write _ _ _ _ (Memory.wf_write _ _ _ _ h (by simp [NV_OFF_FLAG]; omega)) (by simp [NV_OFF_VAL]; omega)

/-- Which command runs, by the address (R82, R121): the three tests of DISPATCH exclude one another. -/
theorem route_cases (p : Params) (a c : Byte) (s : State) :
    (a = ADDR_SET_ON ∧ route p a c s = setOn p c s) ∨ (a = ADDR_SET_OFF ∧ route p a c s = setOff p c s) ∨
    (a = p.ownByte ∧ route p a c s = chMask p c s) ∨
    (a ≠ ADDR_SET_ON ∧ a ≠ ADDR_SET_OFF ∧ a ≠ p.ownByte ∧ route p a c s = s) := by
  have h3 : ADDR_SET_ON ≠ ADDR_SET_OFF := by decide
  have ⟨h1, h2⟩ := ownByte_ne p
  unfold route
  by_cases ha : a = ADDR_SET_ON
  · subst ha; left; simp [h3, h1.symm]
  · by_cases hb : a = ADDR_SET_OFF
    · subst hb; right; left; simp [ha, h2.symm]
    · by_cases hc : a = p.ownByte
      · subst hc; right; right; left; simp [ha, hb]
      · right; right; right; simp [ha, hb, hc]

/-- What the command leaves alone, whatever it is (R122 to R125): the decoder, the buffer, `TX`, the time, the mask and the model's own
fields. -/
theorem route_keeps (p : Params) (a c : Byte) (s : State) :
    ∃ v w x y z, route p a c s = { s with onMs := v, offMs := w, nv := x, chOn := y, chT := z } := by
  have hm : ∀ u : State, ∃ x y, chMask p c u = { u with chOn := x, chT := y } := fun u => ⟨_, _, chMask_shape p c u⟩
  rcases route_cases p a c s with ⟨_, h⟩ | ⟨_, h⟩ | ⟨_, h⟩ | ⟨_, _, _, h⟩
  · exact ⟨_, _, _, _, _, h⟩
  · exact ⟨_, _, _, _, _, h⟩
  · obtain ⟨x, y, e⟩ := hm s
    exact ⟨_, _, _, x, y, h.trans e⟩
  · exact ⟨_, _, _, _, _, h⟩

/-! ### Received bytes -/

/-- FD.TIMEOUT does nothing, or abandons the frame (R106). -/
theorem fdTimeout_cases (p : Params) (s : State) :
    (s.timeoutDue p = false ∧ fdTimeout p s = s) ∨
    (s.timeoutDue p = true ∧ fdTimeout p s = { s with len := 0, fdState := .listening }) := by
  unfold fdTimeout
  cases h : s.timeoutDue p
  · left; exact ⟨rfl, rfl⟩
  · right; exact ⟨rfl, rfl⟩

/-- The five things a received byte can do (R76, R100). -/
theorem fdRx_cases (p : Params) (b : Byte) (s : State) :
    (s.fdState = .listening ∧ b = START_MARKER ∧ fdRx p b s = fdStart s) ∨
    (s.fdState = .listening ∧ b ≠ START_MARKER ∧ fdRx p b s = s.stampRx) ∨
    (s.fdState = .accumulating ∧ b = END_MARKER ∧ fdRx p b s = fdEnd p s) ∨
    (s.fdState = .accumulating ∧ b ≠ END_MARKER ∧ s.len.toNat < 31 ∧ fdRx p b s = (s.storeByte b).stampRx) ∨
    (s.fdState = .accumulating ∧ b ≠ END_MARKER ∧ 31 ≤ s.len.toNat ∧ fdRx p b s = s.stampRx) := by
  cases hf : s.fdState with
  | listening =>
    by_cases hb : b = START_MARKER
    · left; simp only [fdRx, hf, hb, if_true, true_and]
    · right; left; exact ⟨rfl, hb, by simp only [fdRx, hf, hb, if_false, fdSkip]⟩
  | accumulating =>
    by_cases hb : b = END_MARKER
    · right; right; left; simp only [fdRx, hf, hb, if_true, true_and]
    · by_cases hl : s.len.toNat < DATA_CAP
      · right; right; right; left
        exact ⟨rfl, hb, hl, by simp only [fdRx, hf, hb, hl, if_true, if_false, fdData]⟩
      · right; right; right; right
        exact ⟨rfl, hb, by unfold DATA_CAP at hl; omega, by simp only [fdRx, hf, hb, hl, if_false, fdDrop]⟩

/-- A property that the four kinds of effect of a byte keep, FD.RX keeps. -/
theorem fdRx_ind (P : State → Prop) (p : Params) (hstamp : ∀ s, P s → P s.stampRx)
    (hstart : ∀ s, P s → s.fdState = .listening → P (fdStart s))
    (hdata : ∀ s b, P s → s.fdState = .accumulating → b ≠ END_MARKER → s.len.toNat < 31 → P ((s.storeByte b).stampRx))
    (hend : ∀ s, P s → s.fdState = .accumulating → P (fdEnd p s)) (b : Byte) (s : State) (h : P s) : P (fdRx p b s) := by
  rcases fdRx_cases p b s with ⟨h1, _, e⟩ | ⟨_, _, e⟩ | ⟨h1, _, e⟩ | ⟨h1, h2, h3, e⟩ | ⟨_, _, _, e⟩ <;> rw [e]
  · exact hstart s h h1
  · exact hstamp s h
  · exact hend s h h1
  · exact hdata s b h h1 h2 h3
  · exact hstamp s h

/-- A property that every received byte keeps, the bytes of a cycle keep. -/
theorem drain_ind (P : State → Prop) (p : Params) (hrx : ∀ b s, P s → P (fdRx p b s)) (rx : List Byte) (s : State) (h : P s) :
    P (drain p rx s) := by
  induction rx generalizing s with
  | nil => exact h
  | cons b rx ih => exact ih _ (hrx b s h)

theorem drain_append (p : Params) (a b : List Byte) (s : State) : drain p (a ++ b) s = drain p b (drain p a s) := by
  simp [drain, List.foldl_append]

/-- FD.END leaves the time, the mask and the model's own fields alone (R105, R126). -/
theorem fdEnd_keeps (p : Params) (s : State) :
    (fdEnd p s).now = s.now ∧ (fdEnd p s).outMask = s.outMask ∧ (fdEnd p s).pending = s.pending ∧
    (fdEnd p s).envIndex = s.envIndex ∧ (fdEnd p s).boots = s.boots ∧ (fdEnd p s).ret = s.ret := by
  unfold fdEnd
  generalize hu : ((s.storeByte END_MARKER).stampRx.setFd .listening) = u
  have e : u.now = s.now ∧ u.outMask = s.outMask ∧ u.pending = s.pending ∧ u.envIndex = s.envIndex ∧ u.boots = s.boots ∧
      u.ret = s.ret := by
    subst hu
    exact ⟨rfl, rfl, rfl, rfl, rfl, rfl⟩
  obtain ⟨v, w, x, y, z, h⟩ := route_keeps p u.msgAddress u.msgCommand u
  unfold dispatch relay
  rw [h, ← e.1, ← e.2.1, ← e.2.2.1, ← e.2.2.2.1, ← e.2.2.2.2.1, ← e.2.2.2.2.2]
  exact ⟨rfl, rfl, rfl, rfl, rfl, rfl⟩

/-- The bytes of a cycle leave the time, the mask and the model's own fields alone. -/
theorem drain_keeps (p : Params) (rx : List Byte) (s : State) :
    (drain p rx s).now = s.now ∧ (drain p rx s).outMask = s.outMask ∧ (drain p rx s).pending = s.pending ∧
    (drain p rx s).envIndex = s.envIndex ∧ (drain p rx s).boots = s.boots ∧ (drain p rx s).ret = s.ret := by
  refine drain_ind (fun t => t.now = s.now ∧ t.outMask = s.outMask ∧ t.pending = s.pending ∧ t.envIndex = s.envIndex ∧
    t.boots = s.boots ∧ t.ret = s.ret) p (fun b t h => ?_) rx s ⟨rfl, rfl, rfl, rfl, rfl, rfl⟩
  refine fdRx_ind (fun t => t.now = s.now ∧ t.outMask = s.outMask ∧ t.pending = s.pending ∧ t.envIndex = s.envIndex ∧
    t.boots = s.boots ∧ t.ret = s.ret) p ?_ ?_ ?_ ?_ b t h
  · exact fun t h => h
  · exact fun t h _ => h
  · exact fun t b h _ _ _ => h
  · intro t h _
    obtain ⟨e1, e2, e3, e4, e5, e6⟩ := fdEnd_keeps p t
    rw [e1, e2, e3, e4, e5, e6]
    exact h

/-! ### The step -/

/-- Taking a move changes only the moves. -/
theorem takeMove_cases (s : State) : ∃ p e, s.takeMove = { s with pending := p, envIndex := e } := by
  cases h : s.pending with
  | nil => exact ⟨s.pending, s.envIndex + 1, takeMove_of_empty h⟩
  | cons m r => exact ⟨r, s.envIndex, takeMove_of_pending h⟩

/-- The two kinds of step (R155). -/
theorem step_cases (s : State) :
    (∃ now rx, s.nextMove = .cycle now rx ∧ step s = .next (cycle Config.device now rx s.takeMove)) ∨
    (∃ now, s.nextMove = .reset now ∧ step s = .next (init Config.device now s.takeMove.powerCycle)) := by
  unfold step State.beforeStep
  cases h : s.nextMove with
  | cycle now rx => left; exact ⟨now, rx, rfl, rfl⟩
  | reset now => right; exact ⟨now, rfl, rfl⟩

/-- One step, then the others. -/
theorem run_of_step (k : Nat) (s t : State) (h : step s = .next t) :
    Host.Core.run Sys2Proof.core (k + 1) s = Host.Core.run Sys2Proof.core k t := by
  have key : ∀ (M : Host.Core) (u v : M.State), M.step u = .next v → Host.Core.run M (k + 1) u = Host.Core.run M k v := by
    intro M u v e
    simp only [Host.Core.run, e]
  exact key Sys2Proof.core s t h

end Sys2Proof.Machine
end

