-- ==== Sys2Proof/Tests/Slice0.lean ====
section
/-! SUPPORT. The model's own tests: ill-formed operands, words decoded, one small step per operation with the values of
spec/95_test_vectors.md, and for every obligation with hypotheses a state and operands that meet them. -/

namespace Sys2Proof.Tests

open Sys2Proof Sys2Proof.Machine

/-- The example parameter set REF (95_test_vectors.md, D25), with a store of zeros. -/
def ref : Params where
  ownAddr := 1
  sentinel := 0xA5
  defaultOnMs := 500
  defaultOffMs := 200
  timeExtra := 16
  lineTermHead := 13
  lineTermTail := [10]
  nvExtra := 0
  cycleMaxMs := 10
  nvFresh := fun _ => 0

/-- A listening device with everything else at zero but the two periods. -/
def base : State where
  fdState := .listening
  buf := Vector.replicate 32 0
  len := 0
  tLastRx := 0
  chOn := Vector.replicate 8 false
  chT := Vector.replicate 8 0
  onMs := 500
  offMs := 200
  outMask := 0
  nv := []
  tx := []
  now := 0
  pending := []
  envIndex := 0
  boots := 1
  ret := .none

/-- `base` with a frame in progress of `n` stored bytes. -/
def accumulating (n : BitVec 6) : State := { base with fdState := .accumulating, len := n }

/-- `base` with the digits of a message at the head of the buffer. -/
def holding (address command : Byte) : State :=
  { base with buf := (((base.buf.set 0 (hexDigit (address.extractLsb' 4 4))).set 1 (hexDigit (address.extractLsb' 0 4))).set 2
      (hexDigit (command.extractLsb' 4 4))).set 3 (hexDigit (command.extractLsb' 0 4)) }

theorem holding_address (address command : Byte) : (holding address command).msgAddress = address := hexByte_hexDigits address

theorem holding_command (address command : Byte) : (holding address command).msgCommand = command := hexByte_hexDigits command

/-- `base` with every channel on since time 0. -/
def allOn : State := { base with chOn := Vector.replicate 8 true }

/-- `base` with both flags set in the store, in its canonical form. -/
def flagged : State :=
  { base with nv := Memory.write Config.device (Memory.write Config.device [] 0 Config.device.sentinel) 2 Config.device.sentinel }

/-! ### Well-formedness: each check refuses an ill-formed term -/

theorem test_wf_refuses_skip_of_start : wellFormed ref (.fdSkip 0x3C) = false := by decide
theorem test_wf_refuses_data_of_end : wellFormed ref (.fdData 0x3E) = false := by decide
theorem test_wf_refuses_drop_of_end : wellFormed ref (.fdDrop 0x3E) = false := by decide
theorem test_wf_refuses_pass_of_set_on : wellFormed ref (.pass 0xFF 0) = false := by decide
theorem test_wf_refuses_pass_of_set_off : wellFormed ref (.pass 0xFE 0) = false := by decide
theorem test_wf_refuses_pass_of_own : wellFormed ref (.pass 0x01 0) = false := by decide
theorem test_wf_refuses_read_at_size : wellFormed ref (.nvRd 4) = false := by decide
theorem test_wf_refuses_write_at_size : wellFormed ref (.nvWr 4 0) = false := by decide
theorem test_wf_refuses_wide_cycle_sample : wellFormed ref (.cycle (2 ^ 32) []) = false := by decide
theorem test_wf_refuses_wide_init_sample : wellFormed ref (.init (2 ^ 32)) = false := by decide
theorem test_wf_accepts : wellFormed ref (.pass 0xFD 0x01) = true ∧ wellFormed ref (.nvWr 3 0) = true := by decide

/-- The empty `LINE_TERM` and one with a start marker are refused (R17, D30), as is an own address of 254 (R12) a store of 3 bytes (R18) and
a counter of 15 bits (R15); REF's written form is taken. -/
def refRaw : RawParams := ⟨1, 0xA5, 500, 200, 32, [0x0D, 0x0A], 4, 10⟩

theorem test_params_refused :
    (RawParams.accept { refRaw with lineTerm := [] } fun _ => 0).isNone = true ∧
    (RawParams.accept { refRaw with lineTerm := [0x0D, 0x3C] } fun _ => 0).isNone = true ∧
    (RawParams.accept { refRaw with ownAddr := 254 } fun _ => 0).isNone = true ∧
    (RawParams.accept { refRaw with nvSize := 3 } fun _ => 0).isNone = true ∧
    (RawParams.accept { refRaw with timeW := 15 } fun _ => 0).isNone = true := by decide

theorem test_params_taken : (RawParams.accept refRaw fun _ => 0) = some ref ∧ ref.lineTerm = [0x0D, 0x0A] := ⟨rfl, by decide⟩

/-! ### Decoding: words written out from 30_encoding.md -/

/-- R76: `3C` opens a frame while LISTENING. -/
theorem test_decode_start : decodeByte .listening 5 0x3C = .fdStart := by decide
/-- R76, V40-3: `3E` while LISTENING is skipped. -/
theorem test_decode_skip : decodeByte .listening 5 0x3E = .fdSkip 0x3E := by decide
/-- R76: `3E` while ACCUMULATING ends the frame, at any `LEN`. -/
theorem test_decode_end : decodeByte .accumulating 31 0x3E = .fdEnd ∧ decodeByte .accumulating 0 0x3E = .fdEnd := by decide
/-- R76, V40-5, V40-6: `3C` and `61` while ACCUMULATING below 31 are data. -/
theorem test_decode_data : decodeByte .accumulating 2 0x3C = .fdData 0x3C ∧ decodeByte .accumulating 30 0x61 = .fdData 0x61 := by decide
/-- R76, V40-7: `62` at 31 is dropped. -/
theorem test_decode_drop : decodeByte .accumulating 31 0x62 = .fdDrop 0x62 := by decide
/-- V42-1: `<FF19>`. -/
theorem test_decode_set_on : decodeFrame 0x01 [0x3C, 0x46, 0x46, 0x31, 0x39, 0x3E] = .ok (.setOn 0x19, []) := by rfl
/-- V42-6: `<feff>`, in lower case. -/
theorem test_decode_set_off : decodeFrame 0x01 [0x3C, 0x66, 0x65, 0x66, 0x66, 0x3E] = .ok (.setOff 0xFF, []) := by rfl
/-- S1: `<0194>` at the device of address 1. -/
theorem test_decode_ch_mask : decodeFrame 0x01 [0x3C, 0x30, 0x31, 0x39, 0x34, 0x3E] = .ok (.chMask 0x94, []) := by rfl
/-- V42-16: `<FD01>` is for another device, but CHMASK for the device of address 253. -/
theorem test_decode_pass :
    decodeFrame 0x01 [0x3C, 0x46, 0x44, 0x30, 0x31, 0x3E] = .ok (.pass 0xFD 0x01, []) ∧
    decodeFrame 0xFD [0x3C, 0x46, 0x44, 0x30, 0x31, 0x3E] = .ok (.chMask 0x01, []) := ⟨rfl, rfl⟩
/-- A sequence that is no whole frame is refused by name. -/
theorem test_decode_refusals :
    decodeFrame 0x01 [] = .error .noBytes ∧ decodeFrame 0x01 [0x30] = .error .noStartMarker ∧
    decodeFrame 0x01 [0x3C, 0x30] = .error .noEndMarker ∧ decodeFrame 0x01 [0x3C, 0x7A, 0x7A, 0x3E] = .error .shortPayload :=
  ⟨rfl, rfl, rfl, rfl⟩
/-- V40-22: only the first four payload characters are decoded. -/
theorem test_decode_long_payload :
    decodeFrame 0x01 [0x3C, 0x30, 0x31, 0x39, 0x34, 0x30, 0x30, 0x30, 0x30, 0x3E] = .ok (.chMask 0x94, []) := by rfl
/-- R92: canonical frames as 30_encoding.md writes them. -/
theorem test_encode :
    encode ref (.setOn 0x19) = some [0x3C, 0x46, 0x46, 0x31, 0x39, 0x3E] ∧
    encode ref (.setOff 0x0A) = some [0x3C, 0x46, 0x45, 0x30, 0x41, 0x3E] ∧
    encode ref (.chMask 0x94) = some [0x3C, 0x30, 0x31, 0x39, 0x34, 0x3E] ∧
    encode ref (.pass 0x02 0x01) = some [0x3C, 0x30, 0x32, 0x30, 0x31, 0x3E] := by decide

/-! ### One step per operation -/

/-- V41: digits, letters of both cases, and their neighbours. -/
theorem test_hexnib :
    [0x30, 0x39, 0x41, 0x46, 0x61, 0x66].map hexNib = [0, 9, 10, 15, 10, 15] ∧
    [0x2F, 0x3A, 0x40, 0x47, 0x60, 0x67, 0x7A, 0x00, 0xFF].map hexNib = [0, 0, 0, 0, 0, 0, 0, 0, 0] := by decide
/-- V41-22, V41-28, V41-29, V41-31, V41-32. -/
theorem test_hexbyte :
    hexByte 0x66 0x45 = 0xFE ∧ hexByte 0x67 0x31 = 0x01 ∧ hexByte 0x31 0x67 = 0x10 ∧ hexByte 0x3E 0x34 = 0x04 ∧
    hexByte 0x33 0x3E = 0x30 := by decide
theorem test_exec_hex :
    exec (.hexNib 0x61) base = .next { base with ret := .nibble 10 } ∧
    exec (.hexByte 0x39 0x34) base = .next { base with ret := .byte 0x94 } := ⟨rfl, rfl⟩

/-- V40-1. -/
theorem test_fd_start :
    exec .fdStart { base with len := 5, tLastRx := 100, now := 700 } =
      .next { base with fdState := .accumulating, len := 0, tLastRx := 700, now := 700 } := rfl
/-- V40-2. -/
theorem test_fd_skip : exec (.fdRx 0x0A) { base with len := 5, now := 701 } = .next { base with len := 5, tLastRx := 701, now := 701 } := rfl
/-- V40-5, V40-6. -/
theorem test_fd_data :
    (fdData 0x3C (accumulating 2)).buf[2] = 0x3C ∧ (fdData 0x3C (accumulating 2)).len = 3 ∧
    (fdData 0x61 (accumulating 30)).buf[30] = 0x61 ∧ (fdData 0x61 (accumulating 30)).len = 31 := by decide
/-- V40-7. -/
theorem test_fd_drop :
    exec (.fdRx 0x62) { accumulating 31 with now := 15 } = .next { accumulating 31 with tLastRx := 15, now := 15 } := rfl
/-- V40-8, V40-9. -/
theorem test_fd_end :
    (fdEnd ref (accumulating 31)).len = 32 ∧ (fdEnd ref (accumulating 31)).buf[31] = 0x3E ∧
    (fdEnd ref (accumulating 31)).tx.length = 35 ∧ (fdEnd ref (accumulating 0)).tx = [0x3C, 0x3E, 0x0D, 0x0A] ∧
    (fdEnd ref (accumulating 0)).fdState = .listening := by decide
/-- V40-11, V40-12. -/
theorem test_fd_timeout :
    fdTimeout ref { accumulating 2 with tLastRx := 5000, now := 6000 } = { accumulating 2 with tLastRx := 5000, now := 6000 } ∧
    fdTimeout ref { accumulating 2 with tLastRx := 5000, now := 6001 } = { base with tLastRx := 5000, now := 6001 } := ⟨rfl, rfl⟩
/-- V40-14, V40-15: across the counter's wrap. -/
theorem test_fd_timeout_wraps :
    (fdTimeout ref { accumulating 1 with tLastRx := 0xFFFFFE00, now := 0x1E8 }).len = 1 ∧
    (fdTimeout ref { accumulating 1 with tLastRx := 0xFFFFFE00, now := 0x1E9 }).len = 0 := by decide

/-- V42-1, on `NV = 00 11 22 33`. -/
theorem test_set_on :
    (setOn ref 0x19 { base with nv := [(1, 0x11), (2, 0x22), (3, 0x33)] }).onMs = 250 ∧
    (setOn ref 0x19 { base with nv := [(1, 0x11), (2, 0x22), (3, 0x33)] }).nv = [(0, 0xA5), (1, 0x19), (2, 0x22), (3, 0x33)] := by decide
/-- V42-4, V42-5: writing the byte that an unlisted offset reads as removes the cell. -/
theorem test_set_off :
    (setOff ref 0x0A base).offMs = 100 ∧ (setOff ref 0x0A base).nv = [(2, 0xA5), (3, 0x0A)] ∧
    (setOff ref 0x00 { base with nv := [(3, 0x33)] }).nv = [(2, 0xA5)] := by decide
/-- V42-10, V42-17. -/
theorem test_ch_mask :
    maskOf (chMask ref 0x94 { base with now := 200 }).chOn = 0x94 ∧ (chMask ref 0x94 { base with now := 200 }).chT[2] = 200 ∧
    (chMask ref 0x94 { base with now := 200 }).chT[3] = 0 ∧ (chMask ref 0x94 { allOn with now := 200 }).chT[2] = 0 := by decide
/-- V42-15. -/
theorem test_pass : dispatch ref (holding 0x02 0x01) = { holding 0x02 0x01 with tx := [0x3C, 0x0D, 0x0A] } := rfl
/-- S1 and R86: the fields of the buffered message, stale bytes included. -/
theorem test_msg_dec :
    exec .msgDec (holding 0x01 0x94) = .next { holding 0x01 0x94 with ret := .message 0x01 0x94 } ∧
    exec .msgDec base = .next { base with ret := .message 0 0 } := ⟨rfl, rfl⟩
/-- V42-7: `<FF>` with a stale `34` at position 3 is a SETON of 4. -/
theorem test_dispatch_short_frame :
    (fdEnd ref { accumulating 2 with buf := (((base.buf.set 0 0x46).set 1 0x46).set 2 0x39).set 3 0x34 }).onMs = 40 := by decide
/-- V40-10. -/
theorem test_relay :
    (relay ref { holding 0x01 0x94 with len := 4, tx := [0xAA] }).tx = [0xAA, 0x3C, 0x30, 0x31, 0x39, 0x34, 0x0D, 0x0A] := by decide

/-- V43-1, V43-2. -/
theorem test_req_on :
    (reqOn ref 3 { base with chT := Vector.replicate 8 1000, now := 1199 }).chOn[3] = false ∧
    (reqOn ref 3 { base with chT := Vector.replicate 8 1000, now := 1200 }).chOn[3] = true ∧
    (reqOn ref 3 { base with chT := Vector.replicate 8 1000, now := 1200 }).chT[3] = 1200 := by decide
/-- V43-4, V43-5, V43-6: across the wrap, and with no window. -/
theorem test_req_on_wraps :
    (reqOn ref 0 { base with chT := Vector.replicate 8 0xFFFFFF00, now := 0x64 }).chOn[0] = true ∧
    (reqOn ref 0 { base with chT := Vector.replicate 8 0xFFFFFF00, now := 0xFFFFFFC7 }).chOn[0] = false ∧
    (reqOn ref 0 { base with offMs := 0 }).chOn[0] = true := by decide
/-- V43-10, V43-11. -/
theorem test_poll_exp :
    maskOf (pollExp ref { allOn with chT := Vector.replicate 8 1200, now := 1700 }).chOn = 0xFF ∧
    maskOf (pollExp ref { allOn with chT := Vector.replicate 8 1200, now := 1701 }).chOn = 0x00 ∧
    (pollExp ref { allOn with chT := Vector.replicate 8 1200, now := 1701 }).chT[7] = 1701 := by decide
/-- V43-12, V43-13, V43-16. -/
theorem test_poll_exp_edges :
    (pollExp ref { base with now := 99999 }).chT[1] = 0 ∧
    (pollExp ref { allOn with onMs := 0 }).chOn[1] = true ∧
    (pollExp ref { allOn with chT := Vector.replicate 8 0xFFFFFF00, now := 0xF4 }).chOn[1] = true ∧
    (pollExp ref { allOn with chT := Vector.replicate 8 0xFFFFFF00, now := 0xF5 }).chOn[1] = false := by decide
/-- CURMASK of `1,0,0,1,0,1,0,0` for channels 7 to 0. -/
theorem test_cur_mask :
    exec .curMask { base with chOn := ⟨#[false, false, true, false, true, false, false, true], rfl⟩ } =
      .next { base with chOn := ⟨#[false, false, true, false, true, false, false, true], rfl⟩, outMask := 0x94, ret := .mask 0x94 } := rfl

/-- NVRD of a byte in the store, and at an offset that does not exist. -/
theorem test_nv_rd :
    Memory.read ref [(1, 0x11), (3, 0x33)] 3 = 0x33 ∧ Memory.read ref [(1, 0x11), (3, 0x33)] 2 = 0 := by decide
/-- NVWR between two cells, over a cell, and of the unlisted byte. -/
theorem test_nv_wr :
    Memory.write ref [(1, 0x11), (3, 0x33)] 2 0x22 = [(1, 0x11), (2, 0x22), (3, 0x33)] ∧
    Memory.write ref [(1, 0x11), (3, 0x33)] 3 0x44 = [(1, 0x11), (3, 0x44)] ∧
    Memory.write ref [(1, 0x11), (3, 0x33)] 1 0x00 = [(3, 0x33)] := by decide
/-- V44-1, V44-2. -/
theorem test_cfg_load :
    (cfgLoad ref { base with nv := [(0, 0xA5), (1, 0x19), (2, 0xA5), (3, 0x0A)] }).onMs = 250 ∧
    (cfgLoad ref { base with nv := [(0, 0xA5), (1, 0x19), (2, 0xA5), (3, 0x0A)] }).offMs = 100 ∧
    (cfgLoad ref { base with nv := [(0, 0xA5), (1, 0x19), (3, 0x0A)], offMs := 7 }).offMs = 200 := by decide
/-- V44-7: a flag off by one is no flag. -/
theorem test_cfg_load_other_flag :
    (cfgLoad ref { base with nv := [(0, 0xA5), (1, 0xFF), (2, 0xA4), (3, 0x01)] }).onMs = 2550 ∧
    (cfgLoad ref { base with nv := [(0, 0xA5), (1, 0xFF), (2, 0xA4), (3, 0x01)] }).offMs = 200 := by decide
/-- 44_config_store.md: CFGSAVE.ON 19 on `00 11 22 33`, then CFGSAVE.OFF 0A on that. -/
theorem test_cfg_save :
    (cfgSaveOn ref 0x19 { base with nv := [(1, 0x11), (2, 0x22), (3, 0x33)] }).nv = [(0, 0xA5), (1, 0x19), (2, 0x22), (3, 0x33)] ∧
    (cfgSaveOff ref 0x0A { base with nv := [(0, 0xA5), (1, 0x19), (2, 0x22), (3, 0x33)] }).nv =
      [(0, 0xA5), (1, 0x19), (2, 0xA5), (3, 0x0A)] := by decide

/-- V45-3: timeout first, then the frame. -/
theorem test_cycle_timeout_first :
    (cycle ref 6100 [0x3C, 0x30, 0x31, 0x39, 0x34, 0x3E] { accumulating 2 with tLastRx := 5000 }).outMask = 0x94 ∧
    (cycle ref 6100 [0x3C, 0x30, 0x31, 0x39, 0x34, 0x3E] { accumulating 2 with tLastRx := 5000 }).tx =
      [0x3C, 0x30, 0x31, 0x39, 0x34, 0x3E, 0x0D, 0x0A] := by decide
/-- V45-4: no timeout, one merged frame of 8 bytes, no request. -/
theorem test_cycle_merges :
    (cycle ref 5900 [0x3C, 0x30, 0x31, 0x39, 0x34, 0x3E]
      { accumulating 2 with tLastRx := 5000, buf := (base.buf.set 0 0x30).set 1 0x31 }).len = 8 ∧
    (cycle ref 5900 [0x3C, 0x30, 0x31, 0x39, 0x34, 0x3E]
      { accumulating 2 with tLastRx := 5000, buf := (base.buf.set 0 0x30).set 1 0x31 }).outMask = 0 := by decide
/-- V45-1. -/
theorem test_init :
    init ref 1000 { allOn with fdState := .accumulating, len := 9, onMs := 1, offMs := 2, outMask := 0xFF, tx := [0x3C] } =
      { base with tLastRx := 1000, chT := Vector.replicate 8 1000, tx := [0x3C], now := 1000 } := rfl

/-- A placed byte and a placed message are what the next step receives (log 13). -/
theorem test_fetch :
    (base.withFetchWord 8 0x3C).pending = [.cycle 0 [0x3C]] ∧ (base.withFetchWord 8 0x3E).fdState = .accumulating ∧
    (base.withFetchWord 16 0xFF19).pending = [.cycle 0 [0x3C, 0x46, 0x46, 0x31, 0x39, 0x3E]] := by decide
/-- The step runs it. -/
theorem test_step_runs_fetched :
    step (base.withFetchWord 16 0xFF19) = exec (.cycle 0 [0x3C, 0x46, 0x46, 0x31, 0x39, 0x3E]) base := rfl

/-! ### Witnesses: for each obligation with hypotheses, a state and operands that meet them together -/

/-- Small intervals are below the range of every device's counter. -/
theorem elapsed_small (now t : Nat) (h : t ≤ now ∧ now - t < 2 ^ CFG_W) : elapsedMs now t = now - t :=
  elapsedMs_of_lt h.1 (lt_timeMod _ h.2)

theorem witness_FdStartOpensAnEmptyFrame : base.fdState = .listening := rfl
theorem witness_FdSkipKeepsOnlyTheTime : base.fdState = .listening ∧ (0x0A : Byte) ≠ START_MARKER ∧ END_MARKER ≠ START_MARKER := by decide
theorem witness_FdDataStoresOneByte :
    (accumulating 30).len.toNat ≤ 30 ∧ (accumulating 30).fdState = .accumulating ∧ START_MARKER ≠ END_MARKER := by decide
theorem witness_FdDropKeepsOnlyTheTime :
    (accumulating 31).fdState = .accumulating ∧ (0x62 : Byte) ≠ END_MARKER ∧ (accumulating 31).len.toNat = 31 := by decide
theorem witness_FdEndStoresMarkerAndDispatches :
    (accumulating 31).len.toNat ≤ 31 ∧ (accumulating 31).fdState = .accumulating ∧ (accumulating 0).len.toNat ≤ 31 := by decide
theorem witness_BytesWithoutAPlaceAreDropped : 31 ≤ (accumulating 31).len.toNat ∧ 32 ≤ (accumulating 32).len.toNat := by decide
theorem witness_FdRxRunsTheSelectedOperation :
    elapsedMs { accumulating 2 with now := 1001 }.now { accumulating 2 with now := 1001 }.tLastRx > 1000 := by
  show elapsedMs 1001 0 > 1000
  rw [elapsed_small 1001 0 (by decide)]
  decide
theorem witness_LetterCaseIsIgnored : 0x41 ≤ (0x41 : Byte).toNat ∧ (0x41 : Byte).toNat ≤ 0x46 ∧ (0x46 : Byte).toNat ≤ 0x46 := by decide
theorem witness_MsgDecOfCanonicalDigits :
    [(holding 0xFF 0x19).buf[0], (holding 0xFF 0x19).buf[1], (holding 0xFF 0x19).buf[2], (holding 0xFF 0x19).buf[3]] =
      hexDigits 0xFF ++ hexDigits 0x19 := by decide
theorem witness_SetOnSetsAndPersistsTheOnTime :
    Memory.wf Config.device (holding 0xFF 0x19).nv = true ∧ (holding 0xFF 0x19).msgAddress = ADDR_SET_ON := ⟨rfl, by decide⟩
theorem witness_SetOffSetsAndPersistsTheOffTime :
    Memory.wf Config.device (holding 0xFE 0x0A).nv = true ∧ (holding 0xFE 0x0A).msgAddress = ADDR_SET_OFF := ⟨rfl, by decide⟩
theorem witness_ChMaskRequestsTheMaskedChannels :
    (holding Config.device.ownByte 0x94).msgAddress = Config.device.ownByte := holding_address _ _
/-- An address between 0 and 1 that is not the device's own. -/
def otherAddress : Byte := if Config.device.ownByte = 0 then 1 else 0
theorem witness_PassChangesNothing :
    (holding otherAddress 0x01).msgAddress ≠ ADDR_SET_ON ∧ (holding otherAddress 0x01).msgAddress ≠ ADDR_SET_OFF ∧
    (holding otherAddress 0x01).msgAddress ≠ Config.device.ownByte := by
  rw [holding_address]
  unfold otherAddress
  split
  · next h => rw [h]; decide
  · next h => exact ⟨by decide, by decide, fun e => h e.symm⟩
/-- A device that holds a full frame. -/
def fullFrame : State := { base with len := 32, buf := base.buf.set 31 END_MARKER }
theorem witness_RelayEmitsTheStoredFrame : (accumulating 0).len.toNat ≤ 32 ∧ fullFrame.len.toNat ≤ 32 := by decide
theorem witness_RelayBeyondTheBufferEmitsAllOfIt : 32 < (accumulating 33).len.toNat := by decide
theorem witness_ReqOnIsGatedByTheDebounceWindow :
    allOn.chOn[(7 : Chan)] = true ∧
    (base.chOn[(0 : Chan)] = false ∧ elapsedMs 200 base.chT[(0 : Chan)] ≥ base.offMs.toNat) := by
  refine ⟨by decide, by decide, ?_⟩
  show elapsedMs 200 0 ≥ 200
  rw [elapsed_small 200 0 (by decide)]
theorem witness_ChannelLanesAreIndependent :
    base.chOn[(0 : Chan)] = { base with chOn := base.chOn.set 1 true, len := 5 }.chOn[(0 : Chan)] ∧
    base.chT[(0 : Chan)] = { base with chOn := base.chOn.set 1 true, len := 5 }.chT[(0 : Chan)] ∧
    (0x01 : Byte).getLsbD (0 : Chan).val = (0x83 : Byte).getLsbD (0 : Chan).val := by decide
theorem witness_RequestOrderIsNotObservable : [7, 6, 5, 4, 3, 2, 1, 0].Perm ([0, 1, 2, 3, 4, 5, 6, 7] : List Chan) := by decide
theorem witness_StoreReadsTheLastByteWritten : 3 < Config.device.nvSize ∧ Memory.wf Config.device base.nv = true :=
  ⟨four_le_nvSize _, rfl⟩
theorem witness_MissingOffsetsFault : Config.device.nvSize ≤ Config.device.nvSize := Nat.le_refl _
theorem witness_CfgSaveOnWritesFlagAndValue : Memory.wf Config.device base.nv = true := rfl
theorem witness_CfgSaveOffWritesFlagAndValue : Memory.wf Config.device base.nv = true := rfl
theorem witness_BootReloadsWhatWasSet : Memory.wf Config.device base.nv = true := rfl
theorem witness_StepRunsTheDecodedMove :
    { base with pending := [.cycle 5 [0x3C]] }.pending = [.cycle 5 [0x3C]] ∧
    { base with pending := [.reset 5] }.pending = [.reset 5] ∧ base.pending = [] := ⟨rfl, rfl, rfl⟩
theorem witness_ResetKeepsTheStore : { base with pending := [.reset 5, .cycle 6 []] }.pending = .reset 5 :: [.cycle 6 []] := rfl
/-- A device whose store sets `OFF_MS` to 100 at boot. -/
def slowStart : State := { base with nv := [(2, Config.device.sentinel), (3, 0x0A)] }
theorem witness_RequestsAreDebouncedAfterBoot :
    ∃ u, exec (.init 0) slowStart = .next u ∧ elapsedMs 99 0 < u.offMs.toNat := by
  refine ⟨_, rfl, ?_⟩
  have h : (init Config.device 0 slowStart).offMs = scaleCfg 0x0A := by
    simp [init, cfgLoad, State.offFlagSet, State.memRead, slowStart, Memory.read, NV_OFF_FLAG, NV_OFF_VAL]
  rw [h, elapsed_small 99 0 (by decide)]
  decide
theorem witness_WholeFrameIsStoredAndRelayedOnce : base.fdState = .listening ∧ END_MARKER ∉ List.replicate 40 (0x3C : Byte) := by decide
theorem witness_WholeFrameRunsItsCommand :
    base.fdState = .listening ∧
    decodeFrame Config.device.ownByte [0x3C, 0x46, 0x46, 0x31, 0x39, 0x3E] = .ok (.setOn 0x19, []) := ⟨rfl, rfl⟩
theorem witness_SplitFrameIsRelayedOnce :
    base.fdState = .listening ∧ END_MARKER ∉ [(0x30 : Byte), 0x31] ∧
    (START_MARKER :: [0x30]) ++ (([(500, []), (1000, [0x31]), (2000, [0x3E])] : List (Time × List Byte)).map Prod.snd).flatten =
      wireFrame [0x30, 0x31] ∧
    gapsShort 0 [(500, []), (1000, [0x31]), (2000, [0x3E])] :=
  by
  refine ⟨rfl, by decide, by decide, ?_, ?_, ?_, trivial⟩
  · show elapsedMs 500 0 ≤ 1000
    rw [elapsed_small 500 0 (by decide)]
    decide
  · show elapsedMs 1000 0 ≤ 1000
    rw [elapsed_small 1000 0 (by decide)]
  · show elapsedMs 2000 1000 ≤ 1000
    rw [elapsed_small 2000 1000 (by decide)]
theorem witness_StalledFrameIsDiscardedFirst :
    (accumulating 2).fdState = .accumulating ∧ elapsedMs 1001 (accumulating 2).tLastRx > 1000 := by
  refine ⟨rfl, ?_⟩
  show elapsedMs 1001 0 > 1000
  rw [elapsed_small 1001 0 (by decide)]
  decide
theorem witness_BytesOutsideFramesAreIgnored :
    base.fdState = .listening ∧ START_MARKER ∉ [(0x3E : Byte), 0x0D] ∧ [(0x3E : Byte), 0x0D] ≠ [] := by decide
theorem witness_DownstreamReceivesTheSameFrame : base.fdState = .listening ∧ END_MARKER ∉ [(0x30 : Byte), 0x3C] := by decide

theorem zeroTimes : base.now < 2 ^ Config.device.timeW ∧ base.tLastRx < 2 ^ Config.device.timeW ∧
    ∀ i : Chan, base.chT[i] < 2 ^ Config.device.timeW :=
  ⟨Nat.two_pow_pos _, Nat.two_pow_pos _, fun i => by simp [base]⟩
theorem witness_StepKeepsTheInvariants : base.Inv ∧ (accumulating 31).Inv ∧ fullFrame.Inv :=
  ⟨⟨by decide, by decide, by decide, by decide, by decide, zeroTimes, rfl⟩,
   ⟨by decide, by decide, by decide, by decide, by decide, zeroTimes, rfl⟩,
   ⟨by decide, by decide, by decide, by decide, by decide, zeroTimes, rfl⟩⟩
/-- A device that INIT has just loaded. -/
def loaded : State := init Config.device 0 base
theorem witness_StepKeepsConfigEqualToStore : loaded.Inv ∧ loaded.ConfigMatchesStore := by
  refine ⟨⟨by decide, by decide, by decide, by decide, by decide, ⟨sampleOf_lt _, sampleOf_lt _, fun i => ?_⟩, rfl⟩, ⟨?_, ?_⟩⟩
  · simp [loaded, init, cfgLoad]
  · simp [loaded, init, cfgLoad, State.onFlagSet, State.nvByte, State.memRead, NV_ON_FLAG, NV_ON_VAL]
    split <;> simp_all [scaleCfg_toNat]
  · simp [loaded, init, cfgLoad, State.offFlagSet, State.nvByte, State.memRead, NV_OFF_FLAG, NV_OFF_VAL]
    split <;> simp_all [scaleCfg_toNat]
theorem witness_StepNeverClearsAFlagNorTouchesUpperBytes :
    Memory.wf Config.device flagged.nv = true ∧ flagged.nvByte 0 = Config.device.sentinel ∧
    flagged.nvByte 2 = Config.device.sentinel := by
  have h := four_le_nvSize Config.device
  have h0 : Memory.wf Config.device [] = true := rfl
  have h1 := Memory.wf_write Config.device [] 0 Config.device.sentinel h0 (by omega)
  refine ⟨Memory.wf_write _ _ 2 _ h1 (by omega), ?_, ?_⟩
  · simp [flagged, State.nvByte, State.memRead, Memory.read_write _ _ _ _ _ h1, Memory.read_write _ _ _ _ _ h0]
  · simp [flagged, State.nvByte, State.memRead, Memory.read_write _ _ _ _ _ h1]
theorem witness_TxOnlyGrowsByRelayAndWhatRunsIt :
    ∃ t, exec .relay base = .next t ∧ t.tx ≠ base.tx := ⟨_, rfl, by simp [relay, base]⟩
/-- Channel 0 of a device whose channels are all on since 0, polled after 501 ms. -/
theorem polled_late (s : State) (h1 : s.chOn = allOn.chOn) (h2 : s.chT = allOn.chT) (h3 : elapsedMs s.now 0 = 501) (h4 : s.onMs = 500) :
    (pollExp Config.device s).chOn[(0 : Chan)] = false := by
  have h := congrArg Prod.fst (pollExp_lane s 0)
  simp only [h1, h2, h4] at h
  rw [h]
  simp [allOn, base, h3]
/-- The same device polled after 500 ms. -/
theorem polled_in_time (s : State) (h1 : s.chOn = allOn.chOn) (h2 : s.chT = allOn.chT) (h3 : elapsedMs s.now 0 = 500) (h4 : s.onMs = 500) :
    (pollExp Config.device s).chOn[(0 : Chan)] = true := by
  have h := congrArg Prod.fst (pollExp_lane s 0)
  simp only [h1, h2, h4] at h
  rw [h]
  simp [allOn, base, h3]
theorem witness_ChannelsChangeOnlyByTheirOwnOperations :
    (∃ t, exec .pollExp { allOn with now := 501 } = .next t ∧ allOn.chOn[(0 : Chan)] = true ∧ t.chOn[(0 : Chan)] = false) ∧
    (∃ t, exec (.reqOn 0) { base with now := 200 } = .next t ∧ base.chOn[(0 : Chan)] = false ∧ t.chOn[(0 : Chan)] = true) := by
  refine ⟨⟨_, rfl, by decide, polled_late _ rfl rfl (elapsed_small 501 0 (by decide)) rfl⟩, ⟨_, rfl, by decide, ?_⟩⟩
  have e : elapsedMs 200 0 = 200 := elapsed_small 200 0 (by decide)
  have h := congrArg Prod.fst (reqOn_lane 0 0 { base with now := 200 })
  simp [base, e] at h
  exact h
theorem witness_DecoderStateChangesOnlyByThree :
    (∃ t, exec .fdStart base = .next t ∧ base.fdState = .listening ∧ t.fdState = .accumulating) ∧
    (∃ t, exec .fdTimeout { accumulating 2 with now := 1001 } = .next t ∧ (accumulating 2).fdState = .accumulating ∧
      t.fdState = .listening) := by
  refine ⟨⟨_, rfl, rfl, rfl⟩, ⟨_, rfl, rfl, ?_⟩⟩
  have e : elapsedMs 1001 0 > 1000 := by rw [elapsed_small 1001 0 (by decide)]; decide
  have h : State.timeoutDue Config.device { accumulating 2 with now := 1001 } = true := (timeoutDue_iff _).2 ⟨rfl, e⟩
  rw [fdTimeout, if_pos h]
  rfl

/-- A device that has received `<aa01` with `aa` its own address and has no debounce window. -/
def ownRequest : State := { holding Config.device.ownByte 0x01 with fdState := .accumulating, len := 4, offMs := 0 }
theorem witness_ChannelHistoryOfACycle :
    (∃ t, exec (.cycle 501 []) allOn = .next t ∧ allOn.chOn[(0 : Chan)] = true ∧ t.chOn[(0 : Chan)] = false) ∧
    (∃ t, exec (.cycle 500 []) allOn = .next t ∧ allOn.chOn[(0 : Chan)] = true ∧ t.chOn[(0 : Chan)] = true) ∧
    (∃ t, exec (.cycle 0 [0x3E]) ownRequest = .next t ∧ ownRequest.chOn[(0 : Chan)] = false ∧ t.chOn[(0 : Chan)] = true) := by
  have clock : ∀ n : Nat, n < 2 ^ CFG_W → elapsedMs (sampleOf n) 0 = n := fun n h => by
    rw [elapsedMs_sampleOf, elapsed_small n 0 ⟨Nat.zero_le _, h⟩, Nat.sub_zero]
  have idle : ∀ n, exec (.cycle n []) allOn = .next (curMask (pollExp Config.device (allOn.sample Config.device n))) := fun _ => rfl
  have keep : ∀ s, (curMask s).chOn = s.chOn := fun _ => rfl
  generalize hu : ((((ownRequest.sample Config.device 0).storeByte END_MARKER).stampRx).setFd .listening) = u
  have own : exec (.cycle 0 [0x3E]) ownRequest = .next (curMask (pollExp Config.device (dispatch Config.device u))) := by
    rw [← hu]
    rfl
  refine ⟨⟨_, idle 501, by decide, ?_⟩, ⟨_, idle 500, by decide, ?_⟩, ⟨_, own, by decide, ?_⟩⟩ <;> simp only [keep]
  · exact polled_late _ rfl rfl (clock 501 (by decide)) rfl
  · exact polled_in_time _ rfl rfl (clock 500 (by decide)) rfl
  have main : ∀ u : State, u.msgAddress = Config.device.ownByte → u.msgCommand = 0x01 → u.chOn[(0 : Chan)] = false →
      elapsedMs u.now u.now = 0 → u.offMs = 0 → (pollExp Config.device (dispatch Config.device u)).chOn[(0 : Chan)] = true := by
    intro u ha hc hu he ho
    have hr : route Config.device u.msgAddress u.msgCommand u = chMask Config.device 0x01 u := by
      have ⟨h1, h2⟩ := ownByte_ne Config.device
      rw [hc]
      rcases route_cases Config.device u.msgAddress 0x01 u with ⟨h, _⟩ | ⟨h, _⟩ | ⟨_, h⟩ | ⟨_, _, h, _⟩
      · exact absurd (ha ▸ h) h1
      · exact absurd (ha ▸ h) h2
      · exact h
      · exact absurd ha h
    have hd : dispatch Config.device u = relay Config.device (chMask Config.device 0x01 u) := by rw [dispatch, hr]
    have hl := chMask_lane 0x01 u 0
    rw [if_pos ⟨by decide, hu, by rw [ho]; exact Nat.zero_le _⟩] at hl
    have hl := Prod.mk.inj hl
    have h := congrArg Prod.fst (pollExp_lane (dispatch Config.device u) 0)
    rw [hd] at h ⊢
    simp only [relay, State.emit_chOn, State.emit_chT, State.emit_now, chMask_now, hl.1, hl.2, he] at h
    simpa [relay] using h
  subst hu
  exact main _ (hexByte_hexDigits _) (hexByte_hexDigits _) (by decide) (clock 0 (by decide)) rfl
/-- All channels on since time 0 with `ON_MS = 0`. -/
def expiring : State := { allOn with onMs := 0 }
theorem witness_EnergizedChannelExpiresInTime :
    expiring.chOn[(0 : Chan)] = true ∧ expiring.chT[(0 : Chan)] = sampleOf 0 ∧
    (0 :: [((1 : Nat), ([] : List Byte))].map Prod.fst).IsChain (fun a b => a ≤ b ∧ b ≤ a + 1) ∧
    expiring.onMs.toNat + 1 < 2 ^ Config.device.timeW ∧ (∃ c ∈ [((1 : Nat), ([] : List Byte))], 0 + expiring.onMs.toNat < c.1) ∧
    ∀ k, k ≤ 1 → ∀ t : State, runMoves k (asMoves [((1 : Nat), ([] : List Byte))]) expiring = .next t → t.onMs = expiring.onMs := by
  refine ⟨by decide, (Nat.zero_mod _).symm, by decide, lt_timeMod _ (by decide), ⟨_, List.mem_singleton.2 rfl, by decide⟩, ?_⟩
  intro k hk t h
  match k, hk with
  | 0, _ => have := Host.Outcome.next.inj h; subst this; rfl
  | 1, _ =>
    have e : step { expiring with pending := [.cycle 1 []] } = .next (cycle Config.device 1 [] expiring) := rfl
    have r := run_of_step 0 _ _ e
    have := Host.Outcome.next.inj (r.symm.trans h)
    subst this
    have q : drain Config.device [] (fdTimeout Config.device (expiring.sample Config.device 1)) = expiring.sample Config.device 1 := rfl
    simp only [cycle, curMask, State.setOutMask_onMs, pollExp_onMs, q, State.sample_onMs]
theorem witness_DecodeOfEncodeIsTheOperation_bytes :
    (wellFormed ref .fdStart = true ∧ encode ref .fdStart = some [0x3C]) ∧
    (wellFormed ref (.fdSkip 0x3E) = true ∧ encode ref (.fdSkip 0x3E) = some [0x3E]) ∧
    (wellFormed ref .fdEnd = true ∧ encode ref .fdEnd = some [0x3E]) ∧
    (wellFormed ref (.fdData 0x3C) = true ∧ encode ref (.fdData 0x3C) = some [0x3C] ∧ (30 : BitVec 6).toNat < 31) ∧
    (wellFormed ref (.fdDrop 0x62) = true ∧ encode ref (.fdDrop 0x62) = some [0x62] ∧ (31 : BitVec 6).toNat = 31) := by decide
theorem witness_DecodeOfEncodeIsTheOperation_messages :
    (wellFormed ref (.setOn 0xFF) = true ∧ encode ref (.setOn 0xFF) = some [0x3C, 0x46, 0x46, 0x46, 0x46, 0x3E]) ∧
    (wellFormed ref (.setOff 0x00) = true ∧ encode ref (.setOff 0x00) = some [0x3C, 0x46, 0x45, 0x30, 0x30, 0x3E]) ∧
    (wellFormed ref (.chMask 0x94) = true ∧ encode ref (.chMask 0x94) = some [0x3C, 0x30, 0x31, 0x39, 0x34, 0x3E]) ∧
    (wellFormed ref (.pass 0xFD 0x01) = true ∧ encode ref (.pass 0xFD 0x01) = some [0x3C, 0x46, 0x44, 0x30, 0x31, 0x3E]) := by decide
theorem witness_IllegalParameterSetsAreRefused :
    (RawParams.accept refRaw fun _ => 0) = some ref ∧ refRaw.ownAddr ≤ 253 ∧ refRaw.timeW = 32 ∧ refRaw.lineTerm ≠ [] ∧
    START_MARKER ∉ refRaw.lineTerm := ⟨rfl, by decide, by decide, by decide, by decide⟩

end Sys2Proof.Tests
end

section
/-! PROOFS. 00_scope.md: the constraints of R12, R15, R17 and R18 hold for every parameter set, by the types of `Params`' fields (log 2). -/

namespace Sys2Proof

open Machine

/-- `notStart` numbers the bytes in ascending order and leaves out the place of the start marker (R17). -/
theorem notStart_toNat (k : Fin 255) : (notStart k).toNat = if k.val < START_MARKER.toNat then k.val else k.val + 1 := by
  have hk := k.isLt
  unfold notStart
  split <;> rw [BitVec.toNat_ofNat] <;> omega

theorem notStart_ne_startMarker (k : Fin 255) : notStart k ≠ START_MARKER := by
  intro h
  have hval := notStart_toNat k
  rw [h] at hval
  split at hval <;> omega

theorem Params.ownByte_le (p : Params) : p.ownByte.toNat ≤ 253 := by
  rw [ownByte_toNat]
  exact Nat.le_of_lt_succ p.ownAddr.isLt

theorem Params.lineTerm_ne_nil (p : Params) : p.lineTerm ≠ [] := List.cons_ne_nil _ _

theorem Params.startMarker_notMem_lineTerm (p : Params) : START_MARKER ∉ p.lineTerm := by
  intro hmem
  obtain ⟨k, -, hk⟩ := List.mem_map.1 hmem
  exact notStart_ne_startMarker k hk

/-- Settles O57, one constraint at a time. -/
theorem parametersAreLegal : Obligations.ParametersAreLegal := fun p =>
  ⟨p.ownByte_le, Nat.le_add_right CFG_W p.timeExtra, p.lineTerm_ne_nil, p.startMarker_notMem_lineTerm, four_le_nvSize p⟩

end Sys2Proof
end

section
/-! PROOFS. 10_state.md section 8 (R39): the invariants, what each operation of a step keeps of them, and the state after RESET and INIT
(R45, section 11). -/

namespace Sys2Proof.Machine

/-! ### The clauses that hold within a cycle too

`OUT_MASK` is brought up to date by the CURMASK at a cycle's end only (R39 (e)), so the bytes of a cycle keep the other clauses. -/

/-- R39 (a) to (d), of the registers they speak of. -/
structure FrameInv (fd : FdState) (buf : Vector Byte 32) (len : BitVec 6) : Prop where
  len_le : len.toNat ≤ 32
  accumulating_len : fd = .accumulating → len.toNat ≤ 31
  full_frame : len.toNat = 32 → fd = .listening ∧ buf[31] = END_MARKER
  no_end_stored : fd = .accumulating → ∀ i : Fin 32, i.val < len.toNat → buf[i] ≠ END_MARKER

/-- The sample and the timestamps are values of `TIME_W` bits (R15). -/
structure TimesFit (now tLastRx : Time) (chT : Vector Time 8) : Prop where
  now_lt : now < 2 ^ Config.device.timeW
  tLastRx_lt : tLastRx < 2 ^ Config.device.timeW
  chT_lt : ∀ i : Chan, chT[i] < 2 ^ Config.device.timeW

/-- The invariants of `State.Inv` without the one of `OUT_MASK`. -/
structure State.CoreInv (s : State) : Prop where
  frame : FrameInv s.fdState s.buf s.len
  times : TimesFit s.now s.tLastRx s.chT
  nv_wf : Memory.wf Config.device s.nv = true

theorem State.Inv.core {s : State} (h : s.Inv) : s.CoreInv where
  frame := ⟨h.len_le, h.accumulating_len, h.full_frame, h.no_end_stored⟩
  times := ⟨h.times_fit.1, h.times_fit.2.1, h.times_fit.2.2⟩
  nv_wf := h.nv_wf

theorem State.CoreInv.inv {s : State} (h : s.CoreInv) (hmask : ∀ i : Chan, s.outMask.getLsbD i.val = s.chOn[i]) : s.Inv where
  len_le := h.frame.len_le
  accumulating_len := h.frame.accumulating_len
  full_frame := h.frame.full_frame
  no_end_stored := h.frame.no_end_stored
  mask_is_channels := hmask
  times_fit := ⟨h.times.now_lt, h.times.tLastRx_lt, h.times.chT_lt⟩
  nv_wf := h.nv_wf

/-! ### The frame -/

/-- An empty buffer meets R39 (a) to (d) in both decoder states. -/
theorem frameInv_empty (fd : FdState) (buf : Vector Byte 32) : FrameInv fd buf 0 where
  len_le := Nat.zero_le _
  accumulating_len := fun _ => Nat.zero_le _
  full_frame := fun h => absurd h (by decide)
  no_end_stored := fun _ i h => absurd h (Nat.not_lt_zero i.val)

/-- Storing a byte that is no end marker, with a place left for the end marker (R103). -/
theorem FrameInv.storeData {buf : Vector Byte 32} {len : BitVec 6} {b : Byte} (h : FrameInv .accumulating buf len)
    (hb : b ≠ END_MARKER) (hlen : len.toNat < 31) : FrameInv .accumulating (bufPut buf len b) (lenNext len) := by
  have hnext : (lenNext len).toNat = len.toNat + 1 := by rw [toNat_lenNext, if_pos (by omega)]
  refine ⟨by omega, fun _ => by omega, fun h32 => by omega, fun hacc i hi => ?_⟩
  rw [Fin.getElem_fin, getElem_bufPut]
  split
  · exact hb
  · exact h.no_end_stored hacc i (by omega)

/-- Storing the end marker, which the listening decoder leaves last in a full buffer (R105). -/
theorem FrameInv.storeEnd {buf : Vector Byte 32} {len : BitVec 6} (h : FrameInv .accumulating buf len) :
    FrameInv .listening (bufPut buf len END_MARKER) (lenNext len) := by
  have hlen := h.accumulating_len rfl
  have hnext : (lenNext len).toNat = len.toNat + 1 := by rw [toNat_lenNext, if_pos (by omega)]
  refine ⟨by omega, fun hacc => (nomatch hacc), fun h32 => ⟨rfl, ?_⟩, fun hacc => (nomatch hacc)⟩
  rw [getElem_bufPut, if_pos (by omega)]

/-! ### The channels -/

/-- The timestamps fit as long as each new one is the sample (R31). -/
theorem TimesFit.of_lanes {now last : Time} {chT chT' : Vector Time 8} (h : TimesFit now last chT)
    (hlane : ∀ i : Chan, chT'[i] = chT[i] ∨ chT'[i] = now) : TimesFit now last chT' where
  now_lt := h.now_lt
  tLastRx_lt := h.tLastRx_lt
  chT_lt i := by
    rcases hlane i with e | e <;> rw [e]
    · exact h.chT_lt i
    · exact h.now_lt

/-- CHMASK stamps a channel with the sample or not at all (R124). -/
theorem chMask_chT_cases (m : Byte) (s : State) (i : Chan) :
    (chMask Config.device m s).chT[i] = s.chT[i] ∨ (chMask Config.device m s).chT[i] = s.now := by
  have hlane := congrArg Prod.snd (chMask_lane m s i)
  split at hlane
  · exact .inr hlane
  · exact .inl hlane

/-- POLLEXP stamps a channel with the sample or not at all (R137). -/
theorem pollExp_chT_cases (s : State) (i : Chan) :
    (pollExp Config.device s).chT[i] = s.chT[i] ∨ (pollExp Config.device s).chT[i] = s.now := by
  have hlane := congrArg Prod.snd (pollExp_lane s i)
  split at hlane
  · exact .inr hlane
  · exact .inl hlane

/-! ### The operations of a step -/

theorem State.CoreInv.sample {s : State} (h : s.CoreInv) (now : Time) : (s.sample Config.device now).CoreInv :=
  ⟨h.frame, ⟨sampleOf_lt now, h.times.tLastRx_lt, h.times.chT_lt⟩, h.nv_wf⟩

theorem State.CoreInv.stampRx {s : State} (h : s.CoreInv) : s.stampRx.CoreInv :=
  ⟨h.frame, ⟨h.times.now_lt, h.times.now_lt, h.times.chT_lt⟩, h.nv_wf⟩

theorem State.CoreInv.takeMove {s : State} (h : s.CoreInv) : s.takeMove.CoreInv := by
  obtain ⟨_, _, e⟩ := takeMove_cases s
  rw [e]
  exact ⟨h.frame, h.times, h.nv_wf⟩

theorem State.CoreInv.fdTimeout {s : State} (h : s.CoreInv) : (fdTimeout Config.device s).CoreInv := by
  rcases fdTimeout_cases Config.device s with ⟨_, e⟩ | ⟨_, e⟩ <;> rw [e]
  · exact h
  · exact ⟨frameInv_empty _ _, h.times, h.nv_wf⟩

theorem State.CoreInv.chMask {s : State} (h : s.CoreInv) (m : Byte) : (chMask Config.device m s).CoreInv where
  frame := by simpa using h.frame
  times := by simpa using h.times.of_lanes (chMask_chT_cases m s)
  nv_wf := by simpa using h.nv_wf

theorem State.CoreInv.route {s : State} (h : s.CoreInv) (a c : Byte) : (route Config.device a c s).CoreInv := by
  rcases route_cases Config.device a c s with ⟨_, e⟩ | ⟨_, e⟩ | ⟨_, e⟩ | ⟨_, _, _, e⟩ <;> rw [e]
  · exact ⟨h.frame, h.times, cfgSaveOn_wf _ c _ h.nv_wf⟩
  · exact ⟨h.frame, h.times, cfgSaveOff_wf _ c _ h.nv_wf⟩
  · exact h.chMask c
  · exact h

theorem State.CoreInv.relay {s : State} (h : s.CoreInv) : (relay Config.device s).CoreInv := ⟨h.frame, h.times, h.nv_wf⟩

theorem State.CoreInv.dispatch {s : State} (h : s.CoreInv) : (dispatch Config.device s).CoreInv :=
  (h.route s.msgAddress s.msgCommand).relay

theorem State.CoreInv.fdEnd {s : State} (h : s.CoreInv) (hacc : s.fdState = .accumulating) : (fdEnd Config.device s).CoreInv :=
  have hframe : FrameInv .accumulating s.buf s.len := hacc ▸ h.frame
  have hstored : (((s.storeByte END_MARKER).stampRx).setFd .listening).CoreInv :=
    ⟨hframe.storeEnd, h.stampRx.times, h.nv_wf⟩
  hstored.dispatch

/-- Every received byte keeps the invariants (R100). -/
theorem State.CoreInv.fdRx {s : State} (h : s.CoreInv) (b : Byte) : (fdRx Config.device b s).CoreInv := by
  refine fdRx_ind State.CoreInv Config.device ?stamp ?start ?data ?fin b s h
  case stamp => exact fun s h => h.stampRx
  case start => exact fun s h _ => ⟨frameInv_empty _ _, h.stampRx.times, h.nv_wf⟩
  case data =>
    intro s b h hacc hb hlen
    have hframe : FrameInv .accumulating s.buf s.len := hacc ▸ h.frame
    have hdata := hframe.storeData hb hlen
    exact ⟨by simpa [hacc] using hdata, h.stampRx.times, h.nv_wf⟩
  case fin => exact fun s h hacc => h.fdEnd hacc

theorem State.CoreInv.drain {s : State} (h : s.CoreInv) (rx : List Byte) : (drain Config.device rx s).CoreInv :=
  drain_ind State.CoreInv Config.device (fun b _ h => h.fdRx b) rx s h

theorem State.CoreInv.pollExp {s : State} (h : s.CoreInv) : (pollExp Config.device s).CoreInv where
  frame := by simpa using h.frame
  times := by simpa using h.times.of_lanes (pollExp_chT_cases s)
  nv_wf := by simpa using h.nv_wf

/-- CURMASK completes the invariants (R138, R39 (e)). -/
theorem State.CoreInv.curMask {s : State} (h : s.CoreInv) : (curMask s).Inv :=
  have hcore : (Machine.curMask s).CoreInv := ⟨h.frame, h.times, h.nv_wf⟩
  hcore.inv fun i => maskOf_getLsbD s.chOn i

theorem State.CoreInv.cycle {s : State} (h : s.CoreInv) (now : Time) (rx : List Byte) : (cycle Config.device now rx s).Inv :=
  ((((h.sample now).fdTimeout).drain rx).pollExp).curMask

/-- INIT makes the invariants hold in every state whose store is canonical (R157). -/
theorem init_inv (now : Time) (s : State) (h : Memory.wf Config.device s.nv = true) : (init Config.device now s).Inv := by
  have htimes : TimesFit (sampleOf now) (sampleOf now) (Vector.replicate 8 (sampleOf now)) :=
    ⟨sampleOf_lt now, sampleOf_lt now, fun i => by simpa using sampleOf_lt now⟩
  have hcore : (init Config.device now s).CoreInv := ⟨frameInv_empty _ _, htimes, h⟩
  exact hcore.inv fun i => by simp [init, cfgLoad]

/-- Settles O44, by the two kinds of step: a control cycle, or RESET followed by INIT. -/
theorem stepKeepsTheInvariants : Obligations.StepKeepsTheInvariants := by
  intro s h
  have htaken := h.core.takeMove
  rcases step_cases s with ⟨now, rx, _, e⟩ | ⟨now, _, e⟩
  · exact ⟨_, e, htaken.cycle now rx⟩
  · exact ⟨_, e, init_inv now _ htaken.nv_wf⟩

/-! ### The state after RESET and INIT -/

/-- The first power-up as INIT finds it: free contents of `BUF` and a store that the block has never written. -/
def State.firstPowerUp (s : State) : State :=
  { s with buf := State.reset.buf, nv := [], tx := [], pending := [], envIndex := 0, boots := 1, ret := .none }

/-- What INIT makes of the first power-up, from whatever state (R45, R157). -/
theorem init_firstPowerUp (s : State) : init Config.device Config.bootTime s.firstPowerUp = State.reset := by
  have hon : s.firstPowerUp.onFlagSet Config.device = true ↔ Config.device.nvFresh 0 = Config.device.sentinel := beq_iff_eq
  have hoff : s.firstPowerUp.offFlagSet Config.device = true ↔ Config.device.nvFresh 2 = Config.device.sentinel := beq_iff_eq
  simp only [State.reset, ← hon, ← hoff]
  rfl

/-- Settles O36: the statement writes out `State.firstPowerUp`. -/
theorem resetStateIsMadeByInit : Obligations.ResetStateIsMadeByInit := fun s => congrArg Host.Outcome.next (init_firstPowerUp s)

/-- Settles O45: the reset state is one that INIT makes. -/
theorem resetHasTheInvariants : Obligations.ResetHasTheInvariants := by
  unfold Obligations.ResetHasTheInvariants
  rw [← init_firstPowerUp State.reset]
  exact init_inv _ _ rfl

/-- CFGLOAD loads both configuration registers from the store (R146). -/
theorem cfgLoad_configMatchesStore (s : State) : (cfgLoad Config.device s).ConfigMatchesStore where
  onMs_eq := by
    have hflag : s.onFlagSet Config.device = true ↔ s.nvByte 0 = Config.device.sentinel := beq_iff_eq
    show (if s.onFlagSet Config.device then scaleCfg (s.nvByte 1) else Config.device.defaultOnMs).toNat = _
    simp only [hflag, apply_ite BitVec.toNat, scaleCfg_toNat]
    rfl
  offMs_eq := by
    have hflag : s.offFlagSet Config.device = true ↔ s.nvByte 2 = Config.device.sentinel := beq_iff_eq
    show (if s.offFlagSet Config.device then scaleCfg (s.nvByte 3) else Config.device.defaultOffMs).toNat = _
    simp only [hflag, apply_ite BitVec.toNat, scaleCfg_toNat]
    rfl

/-- INIT ends with the boot load; the OUT_MASK it then clears is no part of the configuration (R157). -/
theorem init_configMatchesStore (now : Time) (s : State) : (init Config.device now s).ConfigMatchesStore :=
  have hload := cfgLoad_configMatchesStore ((((s.sample Config.device now).setFd .listening).clearLen).stampRx.clearChannels)
  ⟨hload.onMs_eq, hload.offMs_eq⟩

/-- Settles O47: the reset state is one that INIT makes. -/
theorem resetHasConfigEqualToStore : Obligations.ResetHasConfigEqualToStore := by
  unfold Obligations.ResetHasConfigEqualToStore
  rw [← init_firstPowerUp State.reset]
  exact init_configMatchesStore _ _

end Sys2Proof.Machine
end

section
/-! PROOFS. 10_state.md section 5 (R40, with R108): `TX` only grows, and only RELAY and what runs it make it grow. -/

namespace Sys2Proof.Machine

/-! ### Within a frame -/

/-- The command of a message emits nothing (R122 to R125). -/
@[simp] theorem route_tx (p : Params) (a c : Byte) (s : State) : (route p a c s).tx = s.tx := by
  obtain ⟨_, _, _, _, _, e⟩ := route_keeps p a c s
  rw [e]

theorem relay_tx_grows (p : Params) (s : State) : s.tx <+: (relay p s).tx := ⟨_, rfl⟩

theorem dispatch_tx_grows (p : Params) (s : State) : s.tx <+: (dispatch p s).tx := by
  simpa [dispatch] using relay_tx_grows p (route p s.msgAddress s.msgCommand s)

theorem fdEnd_tx_grows (p : Params) (s : State) : s.tx <+: (fdEnd p s).tx :=
  dispatch_tx_grows p (((s.storeByte END_MARKER).stampRx).setFd .listening)

/-- A received byte emits nothing unless it ends a frame (R108). -/
theorem fdRx_tx_cases (p : Params) (b : Byte) (s : State) :
    (fdRx p b s).tx = s.tx ∨ (b = END_MARKER ∧ s.fdState = .accumulating ∧ s.tx <+: (fdRx p b s).tx) := by
  rcases fdRx_cases p b s with ⟨_, _, e⟩ | ⟨_, _, e⟩ | ⟨hacc, hb, e⟩ | ⟨_, _, _, e⟩ | ⟨_, _, _, e⟩ <;> rw [e]
  case inr.inr.inl => exact .inr ⟨hb, hacc, fdEnd_tx_grows p s⟩
  all_goals exact .inl rfl

theorem fdTimeout_tx (p : Params) (s : State) : (fdTimeout p s).tx = s.tx := by
  rcases fdTimeout_cases p s with ⟨_, e⟩ | ⟨_, e⟩ <;> rw [e]

theorem drain_tx_grows (p : Params) (rx : List Byte) (s : State) : s.tx <+: (drain p rx s).tx := by
  refine drain_ind (fun t => s.tx <+: t.tx) p (fun b t h => ?_) rx s ⟨[], List.append_nil _⟩
  rcases fdRx_tx_cases p b t with e | ⟨_, _, hgrow⟩
  · rwa [e]
  · exact h.trans hgrow

theorem cycle_tx_grows (p : Params) (now : Time) (rx : List Byte) (s : State) : s.tx <+: (cycle p now rx s).tx := by
  have hdrain := drain_tx_grows p rx (fdTimeout p (s.sample p now))
  rw [fdTimeout_tx] at hdrain
  simpa [cycle, curMask] using hdrain

/-! ### Every operation -/

/-- The operations that run RELAY (R121, R105, R100, R156), in the decoder state in which they do. -/
def runsRelay (i : Instr) (s : State) : Prop :=
  i = .relay ∨ i = .dispatch ∨ i = .fdEnd ∨ (i = .fdRx END_MARKER ∧ s.fdState = .accumulating) ∨ ∃ now rx, i = .cycle now rx

/-- What an operation can do to `TX`: nothing, or it runs RELAY and appends. -/
theorem exec_tx_cases (i : Instr) (s t : State) (h : exec i s = .next t) :
    t.tx = s.tx ∨ (runsRelay i s ∧ s.tx <+: t.tx) := by
  cases i
  case relay => obtain rfl := Host.Outcome.next.inj h; exact .inr ⟨.inl rfl, relay_tx_grows _ s⟩
  case dispatch => obtain rfl := Host.Outcome.next.inj h; exact .inr ⟨.inr (.inl rfl), dispatch_tx_grows _ s⟩
  case fdEnd => obtain rfl := Host.Outcome.next.inj h; exact .inr ⟨.inr (.inr (.inl rfl)), fdEnd_tx_grows _ s⟩
  case fdRx b =>
    obtain rfl := Host.Outcome.next.inj h
    rcases fdRx_tx_cases Config.device b s with e | ⟨rfl, hacc, hgrow⟩
    · exact .inl e
    · exact .inr ⟨.inr (.inr (.inr (.inl ⟨rfl, hacc⟩))), hgrow⟩
  case cycle now rx =>
    obtain rfl := Host.Outcome.next.inj h
    exact .inr ⟨.inr (.inr (.inr (.inr ⟨now, rx, rfl⟩))), cycle_tx_grows _ now rx s⟩
  case fdTimeout => obtain rfl := Host.Outcome.next.inj h; exact .inl (fdTimeout_tx _ s)
  case chMask command => obtain rfl := Host.Outcome.next.inj h; exact .inl (chMask_tx _ command s)
  case reqOn ch => obtain rfl := Host.Outcome.next.inj h; exact .inl (reqOn_tx _ ch s)
  case pollExp => obtain rfl := Host.Outcome.next.inj h; exact .inl (pollExp_tx _ s)
  case fdData b =>
    obtain rfl := Host.Outcome.next.inj h
    simp only [fdData]
    split <;> exact .inl rfl
  case nvRd off =>
    simp only [exec, execNvRd] at h
    split at h <;> cases h
    exact .inl rfl
  case nvWr off v =>
    simp only [exec, execNvWr] at h
    split at h <;> cases h
    exact .inl rfl
  all_goals obtain rfl := Host.Outcome.next.inj h; exact .inl rfl

/-- Settles O49, from what each operation can do to `TX`. -/
theorem txOnlyGrowsByRelayAndWhatRunsIt : Obligations.TxOnlyGrowsByRelayAndWhatRunsIt := by
  intro i s t h
  rcases exec_tx_cases i s t h with e | ⟨hrelay, out, hout⟩
  · exact ⟨⟨[], by rw [e, List.append_nil]⟩, fun hne => absurd e hne⟩
  · exact ⟨⟨out, hout.symm⟩, fun _ => hrelay⟩

end Sys2Proof.Machine
end

section
/-! PROOFS. 10_state.md section 3 (R31, with R140): what one control cycle does to one channel. The bytes of the cycle either leave the
channel alone or turn it on, once, with a frame that ends among them; POLLEXP then turns it off where it has expired. -/

namespace Sys2Proof.Machine

/-! ### One lane from a state to a later one -/

/-- Channel `i` is in `t` as it was in `s`. -/
def SameLane (i : Chan) (s t : State) : Prop := t.chOn[i] = s.chOn[i] ∧ t.chT[i] = s.chT[i]

/-- Channel `i` has come on between `s` and `t`, stamped with the sample. -/
def CameOn (i : Chan) (s t : State) : Prop := s.chOn[i] = false ∧ t.chOn[i] = true ∧ t.chT[i] = s.now

/-- The debounce window of channel `i` has passed, by the `OFF_MS` in force (R136). -/
def WindowPassed (i : Chan) (s : State) : Prop := s.offMs.toNat ≤ elapsedMs s.now s.chT[i]

theorem SameLane.refl (i : Chan) (s : State) : SameLane i s s := ⟨rfl, rfl⟩

/-- CHMASK leaves a lane alone, or turns it on in its window (R124). -/
theorem chMask_lane_cases (i : Chan) (m : Byte) (s : State) :
    SameLane i s (chMask Config.device m s) ∨ (CameOn i s (chMask Config.device m s) ∧ WindowPassed i s) := by
  have hlane := chMask_lane m s i
  split at hlane <;> obtain ⟨hon, ht⟩ := Prod.mk.inj hlane
  case isTrue haccepted => exact .inr ⟨⟨haccepted.2.1, hon, ht⟩, haccepted.2.2⟩
  case isFalse => exact .inl ⟨hon, ht⟩

/-- So does the command of every message, whatever it is (R121). -/
theorem route_lane_cases (i : Chan) (a c : Byte) (s : State) :
    SameLane i s (route Config.device a c s) ∨ (CameOn i s (route Config.device a c s) ∧ WindowPassed i s) := by
  rcases route_cases Config.device a c s with ⟨_, e⟩ | ⟨_, e⟩ | ⟨_, e⟩ | ⟨_, _, _, e⟩ <;> rw [e]
  case inr.inr.inl => exact chMask_lane_cases i c s
  all_goals exact .inl ⟨rfl, rfl⟩

theorem sameLane_relay (i : Chan) (p : Params) (s t : State) : SameLane i s (relay p t) ↔ SameLane i s t := by
  simp only [SameLane, relay, State.emit_chOn, State.emit_chT]

theorem cameOn_relay (i : Chan) (p : Params) (s t : State) : CameOn i s (relay p t) ↔ CameOn i s t := by
  simp only [CameOn, relay, State.emit_chOn, State.emit_chT]

theorem dispatch_lane_cases (i : Chan) (s : State) :
    SameLane i s (dispatch Config.device s) ∨ (CameOn i s (dispatch Config.device s) ∧ WindowPassed i s) := by
  rw [dispatch, sameLane_relay, cameOn_relay]
  exact route_lane_cases i s.msgAddress s.msgCommand s

/-- A byte leaves a lane alone, or it ends a frame that turns it on in its window. -/
theorem fdRx_lane_cases (i : Chan) (b : Byte) (s : State) :
    SameLane i s (fdRx Config.device b s) ∨
    (b = END_MARKER ∧ s.fdState = .accumulating ∧ CameOn i s (fdRx Config.device b s) ∧ WindowPassed i s) := by
  rcases fdRx_cases Config.device b s with ⟨_, _, e⟩ | ⟨_, _, e⟩ | ⟨hacc, hb, e⟩ | ⟨_, _, _, e⟩ | ⟨_, _, _, e⟩ <;> rw [e]
  case inr.inr.inl =>
    have hdispatch := dispatch_lane_cases i (((s.storeByte END_MARKER).stampRx).setFd .listening)
    exact hdispatch.imp id fun hon => ⟨hb, hacc, hon⟩
  all_goals exact .inl ⟨rfl, rfl⟩

/-- The bytes of a cycle leave a lane alone, or a frame among them ended and turned it on in the window that it had before them. -/
theorem drain_lane_cases (i : Chan) (rx : List Byte) (s : State) :
    SameLane i s (drain Config.device rx s) ∨
    (CameOn i s (drain Config.device rx s) ∧ ∃ before after : List Byte, rx = before ++ END_MARKER :: after ∧
      (drain Config.device before s).fdState = .accumulating ∧
      (drain Config.device before s).offMs.toNat ≤ elapsedMs s.now s.chT[i]) := by
  induction rx generalizing s with
  | nil => exact .inl (SameLane.refl i s)
  | cons b rx ih =>
    have hnow : (fdRx Config.device b s).now = s.now := (drain_keeps Config.device [b] s).1
    have hrest := ih (fdRx Config.device b s)
    show SameLane i s (drain Config.device rx (fdRx Config.device b s)) ∨
      (CameOn i s (drain Config.device rx (fdRx Config.device b s)) ∧ _)
    rcases fdRx_lane_cases i b s with ⟨hon, ht⟩ | ⟨rfl, hacc, ⟨hoff, hon, ht⟩, hwindow⟩
    · simp only [SameLane, CameOn, hon, ht, hnow] at hrest ⊢
      refine hrest.imp id fun ⟨hcame, before, after, hrx, hframe⟩ => ⟨hcame, b :: before, after, ?_, hframe⟩
      rw [hrx, List.cons_append]
    · rcases hrest with ⟨hon', ht'⟩ | ⟨⟨hoff', _⟩, _⟩
      · exact .inr ⟨⟨hoff, hon'.trans hon, ht'.trans ht⟩, [], rx, rfl, hacc, hwindow⟩
      · rw [hon] at hoff'
        cases hoff'

/-! ### The cycle -/

theorem fdTimeout_sameLane (i : Chan) (s : State) : SameLane i s (fdTimeout Config.device s) := by
  rcases fdTimeout_cases Config.device s with ⟨_, e⟩ | ⟨_, e⟩ <;> rw [e]
  · exact ⟨rfl, rfl⟩
  · exact ⟨rfl, rfl⟩

theorem fdTimeout_now (p : Params) (s : State) : (fdTimeout p s).now = s.now := by
  rcases fdTimeout_cases p s with ⟨_, e⟩ | ⟨_, e⟩ <;> rw [e]

/-- The state of a cycle before POLLEXP: the sample is taken, the timeout tested, the bytes drained (R156). -/
def received (now : Time) (rx : List Byte) (s : State) : State :=
  drain Config.device rx (fdTimeout Config.device { s with now := sampleOf now })

theorem cycle_eq_of_received (now : Time) (rx : List Byte) (s : State) :
    cycle Config.device now rx s = curMask (pollExp Config.device (received now rx s)) := rfl

/-- FD.RX of byte after byte is what a cycle does with its bytes (R156). -/
theorem runAll_fdRx (bytes : List Byte) (s : State) : runAll (bytes.map .fdRx) s = .next (drain Config.device bytes s) := by
  induction bytes generalizing s with
  | nil => rfl
  | cons b bytes ih => exact ih (fdRx Config.device b s)

theorem runAll_received (now : Time) (bytes : List Byte) (s : State) :
    runAll (.fdTimeout :: bytes.map .fdRx) { s with now := sampleOf now } = .next (received now bytes s) :=
  runAll_fdRx bytes _

theorem received_now (now : Time) (rx : List Byte) (s : State) : (received now rx s).now = sampleOf now := by
  rw [received, (drain_keeps _ _ _).1, fdTimeout_now]

/-- What the part of a cycle before POLLEXP does to a lane. -/
theorem received_lane_cases (now : Time) (rx : List Byte) (s : State) (i : Chan) :
    SameLane i s (received now rx s) ∨
    (s.chOn[i] = false ∧ (received now rx s).chOn[i] = true ∧ (received now rx s).chT[i] = sampleOf now ∧
      ∃ before after : List Byte, rx = before ++ END_MARKER :: after ∧ (received now before s).fdState = .accumulating ∧
        (received now before s).offMs.toNat ≤ elapsedMs now s.chT[i]) := by
  have hdrain := drain_lane_cases i rx (fdTimeout Config.device { s with now := sampleOf now })
  obtain ⟨hon, ht⟩ := fdTimeout_sameLane i { s with now := sampleOf now }
  simp only [SameLane, CameOn, hon, ht, fdTimeout_now, elapsedMs_sampleOf, and_assoc] at hdrain
  exact hdrain

/-- POLLEXP on one lane of a cycle: off exactly where it has expired (R137). -/
theorem cycle_lane (now : Time) (rx : List Byte) (s : State) (i : Chan) :
    ((cycle Config.device now rx s).chOn[i], (cycle Config.device now rx s).chT[i]) =
      if (received now rx s).chOn[i] = true ∧ elapsedMs now (received now rx s).chT[i] > (received now rx s).onMs.toNat then
        (false, sampleOf now)
      else ((received now rx s).chOn[i], (received now rx s).chT[i]) := by
  have hpoll := pollExp_lane (received now rx s) i
  rw [received_now, elapsedMs_sampleOf] at hpoll
  simpa only [cycle_eq_of_received, curMask, State.setOutMask_chOn, State.setOutMask_chT] using hpoll

theorem cycle_onMs (now : Time) (rx : List Byte) (s : State) :
    (cycle Config.device now rx s).onMs = (received now rx s).onMs := by
  rw [cycle_eq_of_received, curMask, State.setOutMask_onMs, pollExp_onMs]

theorem elapsedMs_self (t : Time) : elapsedMs t t = 0 := by
  rw [elapsedMs_of_lt (Nat.le_refl t) (by rw [Nat.sub_self]; exact Nat.two_pow_pos _), Nat.sub_self]

/-- Settles O52: where the bytes leave the channel alone POLLEXP decides; where they turn it on it is not due, for no time has passed. -/
theorem channelHistoryOfACycle : Obligations.ChannelHistoryOfACycle := by
  intro s now rx i
  refine ⟨cycle Config.device now rx s, rfl, ?_⟩
  have hlane := cycle_lane now rx s i
  rw [cycle_onMs]
  rcases received_lane_cases now rx s i with ⟨hon, ht⟩ | ⟨hoff, hon, ht, before, after, hrx, hacc, hwindow⟩
  · rw [hon, ht] at hlane
    split at hlane <;> obtain ⟨hon', ht'⟩ := Prod.mk.inj hlane <;> rw [hon', ht']
    case isTrue hexpired =>
      obtain ⟨hwas, hlate⟩ := hexpired
      rw [hwas]
      exact ⟨rfl, fun _ => ⟨fun _ => hlate, fun _ => rfl⟩, fun h => absurd h (by decide)⟩
    case isFalse hstays =>
      refine ⟨(if_pos rfl).symm, fun hwas => ?_, fun hoff hon => absurd (hoff.symm.trans hon) (by decide)⟩
      rw [hwas]
      exact ⟨fun h => absurd h (by decide), fun hlate => absurd ⟨hwas, hlate⟩ hstays⟩
  · rw [ht, elapsedMs_sampleOf_right, elapsedMs_self, if_neg (by omega), hon] at hlane
    obtain ⟨hon', ht'⟩ := Prod.mk.inj hlane
    rw [hon', ht', hoff]
    exact ⟨rfl, fun h => absurd h (by decide),
      fun _ _ => ⟨before, after, _, hrx, runAll_received now before s, hacc, hwindow⟩⟩

end Sys2Proof.Machine
end

section
/-! PROOFS. 20_memory.md: the non-volatile store as NVRD, NVWR and RESET see it (R51 to R53, R68), and the buffer without a place for a
byte (R55). -/

namespace Sys2Proof.Machine

/-! ### NVRD and NVWR -/

theorem exec_nvRd_of_lt {off : Nat} (s : State) (h : off < Config.device.nvSize) :
    exec (.nvRd off) s = .next (s.setRet (.byte (s.nvByte off))) := if_pos h

theorem exec_nvWr_of_lt {off : Nat} (v : Byte) (s : State) (h : off < Config.device.nvSize) :
    exec (.nvWr off v) s = .next (s.memWrite Config.device off v) := if_pos h

theorem exec_nvRd_of_ge {off : Nat} (s : State) (h : Config.device.nvSize ≤ off) :
    exec (.nvRd off) s = .fault .nvOffset := if_neg (Nat.not_lt.2 h)

theorem exec_nvWr_of_ge {off : Nat} (v : Byte) (s : State) (h : Config.device.nvSize ≤ off) :
    exec (.nvWr off v) s = .fault .nvOffset := if_neg (Nat.not_lt.2 h)

/-- What each byte of the device's canonical store reads as after `MemWrite` (R53). -/
theorem nvByte_memWrite (off a : Nat) (v : Byte) (s : State) (h : Memory.wf Config.device s.nv = true) :
    (s.memWrite Config.device off v).nvByte a = if a = off then v else s.nvByte a :=
  Memory.read_write Config.device s.nv off a v h

/-- Settles O26: both operations test the offset first. -/
theorem missingOffsetsFault : Obligations.MissingOffsetsFault :=
  fun _ v s hoff => ⟨exec_nvRd_of_ge s hoff, exec_nvWr_of_ge v s hoff⟩

/-- Settles O25, by the laws of the store: reading after a write, and the canonical form that a write keeps. -/
theorem storeReadsTheLastByteWritten : Obligations.StoreReadsTheLastByteWritten := by
  intro off v s hoff
  refine ⟨exec_nvRd_of_lt s hoff, fun hwf => ⟨s.memWrite Config.device off v, exec_nvWr_of_lt v s hoff, rfl, ?wf, ?bytes⟩⟩
  case wf => exact Memory.wf_write Config.device s.nv off v hwf hoff
  case bytes => exact fun a => nvByte_memWrite off a v s hwf

/-! ### A full buffer -/

/-- With no place left, storing a byte changes nothing (R55; log 10). -/
theorem storeByte_of_full (b : Byte) (s : State) (h : 32 ≤ s.len.toNat) : s.storeByte b = s := by
  have hfull : ¬ s.len.toNat < 32 := Nat.not_lt.2 h
  simp only [State.storeByte, bufPut, lenNext, hfull, dite_false, if_false]

/-- FD.DATA leaves the last place to the end marker (R103; log 10). -/
theorem fdData_of_full (b : Byte) (s : State) (h : 31 ≤ s.len.toNat) : fdData b s = s.stampRx := if_neg (Nat.not_lt.2 h)

theorem fdEnd_of_full (p : Params) (s : State) (h : 32 ≤ s.len.toNat) :
    fdEnd p s = dispatch p (s.stampRx.setFd .listening) := by
  rw [fdEnd, storeByte_of_full END_MARKER s h]

/-- Settles O6, one operation at a time. -/
theorem bytesWithoutAPlaceAreDropped : Obligations.BytesWithoutAPlaceAreDropped := by
  refine ⟨fun b s hlen => ?data, fun s hlen => ⟨_, ?fin, rfl⟩⟩
  case data => exact congrArg Host.Outcome.next (fdData_of_full b s hlen)
  case fin => exact congrArg Host.Outcome.next (fdEnd_of_full Config.device s hlen)

/-! ### RESET -/

/-- A placed power cycle is RESET, which draws new buffer contents, and then INIT (R155, R195). -/
theorem step_of_reset {s : State} {now : Time} {rest : List EnvMove} (h : s.pending = .reset now :: rest) :
    step s = .next (init Config.device now { s with pending := rest, buf := powerOnBuf s.boots, boots := s.boots + 1 }) := by
  have hmove := nextMove_of_pending h
  rcases step_cases s with ⟨_, _, hcycle, _⟩ | ⟨_, hreset, e⟩
  · cases hmove.symm.trans hcycle
  · cases hmove.symm.trans hreset
    rw [e, takeMove_of_pending h]
    rfl

/-- What INIT sets; every field not named is unchanged, the store and `TX` among them (R157). -/
theorem init_shape (now : Time) (s : State) : init Config.device now s =
    { s with
      fdState := .listening, len := 0, tLastRx := sampleOf now, chOn := Vector.replicate 8 false,
      chT := Vector.replicate 8 (sampleOf now), onMs := (init Config.device now s).onMs,
      offMs := (init Config.device now s).offMs, outMask := 0, now := sampleOf now } := rfl

/-- Settles O34: neither RESET nor the INIT that follows it writes the store. -/
theorem resetKeepsTheStore : Obligations.ResetKeepsTheStore := by
  intro s now rest hpending
  refine ⟨_, step_of_reset hpending, ?_⟩
  rw [init_shape]
  exact ⟨rfl, fun _ => rfl, rfl, rfl, rfl, rfl, rfl, rfl, fun i => by simp⟩

end Sys2Proof.Machine
end

section
/-! PROOFS. 30_encoding.md sections 3 to 5: the decode maps of bytes and messages (R76, R82), the canonical frame (R92), and the letter
case of its digits (R85). -/

namespace Sys2Proof

open Machine

/-! ### Digits -/

/-- The middle range of R115. -/
theorem hexNib_of_upper {c : Byte} (hlo : 0x41 ≤ c.toNat) (hhi : c.toNat ≤ 0x46) : hexNib c = (c - 0x41 + 10).setWidth 4 := by
  rw [hexNib, if_neg (by bv_omega), if_pos (by bv_omega)]

/-- The last range of R115. -/
theorem hexNib_of_lower {c : Byte} (hlo : 0x61 ≤ c.toNat) (hhi : c.toNat ≤ 0x66) : hexNib c = (c - 0x61 + 10).setWidth 4 := by
  rw [hexNib, if_neg (by bv_omega), if_neg (by bv_omega), if_pos (by bv_omega)]

theorem hexNib_add_0x20 {c : Byte} (hlo : 0x41 ≤ c.toNat) (hhi : c.toNat ≤ 0x46) : hexNib (c + 0x20) = hexNib c := by
  have hsum : (c + 0x20).toNat = c.toNat + 0x20 := by bv_omega
  have hoffset : c + 0x20 - 0x61 = c - 0x41 := by bv_omega
  rw [hexNib_of_upper hlo hhi, hexNib_of_lower (by omega) (by omega), hoffset]

/-- Settles O11: both letters are as far from the first letter of their case. -/
theorem letterCaseIsIgnored : Obligations.LetterCaseIsIgnored := fun c s hlo hhi =>
  congrArg (fun v => Host.Outcome.next (s.setRet (.nibble v))) (hexNib_add_0x20 (c := c) hlo hhi)

theorem hexDigit_ne_endMarker : ∀ v : Nibble, hexDigit v ≠ END_MARKER := by decide

/-- The payload of a canonical frame ends with the frame's end marker and not before (R92). -/
theorem endMarker_notMem_hexDigits (a c : Byte) : END_MARKER ∉ hexDigits a ++ hexDigits c := by
  simp only [hexDigits, List.cons_append, List.nil_append, List.mem_cons, List.not_mem_nil, or_false, not_or]
  exact ⟨(hexDigit_ne_endMarker _).symm, (hexDigit_ne_endMarker _).symm, (hexDigit_ne_endMarker _).symm,
    (hexDigit_ne_endMarker _).symm⟩

/-! ### Frames -/

theorem canonicalFrame_eq_wireFrame (a c : Byte) : canonicalFrame a c = wireFrame (hexDigits a ++ hexDigits c) := rfl

theorem splitAtEnd_append {payload : List Byte} (rest : List Byte) (h : END_MARKER ∉ payload) :
    splitAtEnd (payload ++ END_MARKER :: rest) = some (payload, rest) := by
  induction payload with
  | nil => rfl
  | cons b payload ih =>
    obtain ⟨hb, hpayload⟩ := List.ne_and_not_mem_of_not_mem_cons h
    rw [List.cons_append, splitAtEnd, if_neg hb.symm, ih hpayload]
    rfl

theorem eq_append_of_splitAtEnd {bytes payload rest : List Byte} (h : splitAtEnd bytes = some (payload, rest)) :
    END_MARKER ∉ payload ∧ bytes = payload ++ END_MARKER :: rest := by
  induction bytes generalizing payload with
  | nil => cases h
  | cons b bytes ih =>
    rw [splitAtEnd] at h
    split at h
    case isTrue hb =>
      cases h
      exact ⟨List.not_mem_nil, by rw [hb, List.nil_append]⟩
    case isFalse hb =>
      obtain ⟨⟨payload', _⟩, hsplit, hcons⟩ := Option.map_eq_some_iff.1 h
      cases hcons
      obtain ⟨hpayload, hbytes⟩ := ih hsplit
      exact ⟨List.not_mem_cons_of_ne_of_not_mem (Ne.symm hb) hpayload, by rw [hbytes, List.cons_append]⟩

/-- A byte sequence that is one whole frame of four payload characters or more, and the command it decodes to (R77, R79, R87). -/
theorem decodeFrame_eq_ok_iff (own : Byte) (w : List Byte) (i : Instr) :
    decodeFrame own w = .ok (i, []) ↔
      ∃ (c0 c1 c2 c3 : Byte) (more : List Byte), END_MARKER ∉ c0 :: c1 :: c2 :: c3 :: more ∧
        w = wireFrame (c0 :: c1 :: c2 :: c3 :: more) ∧ i = decodePayload own c0 c1 c2 c3 := by
  constructor
  · intro h
    cases w with
    | nil => cases h
    | cons b bytes =>
      rw [decodeFrame] at h
      split at h
      case isFalse => cases h
      case isTrue hb =>
        split at h <;> cases h
        next c0 c1 c2 c3 more hsplit =>
          obtain ⟨hpayload, hbytes⟩ := eq_append_of_splitAtEnd hsplit
          exact ⟨c0, c1, c2, c3, more, hpayload, by rw [hb, hbytes]; rfl, rfl⟩
  · rintro ⟨c0, c1, c2, c3, more, hpayload, rfl, rfl⟩
    have hsplit := splitAtEnd_append [] hpayload
    show decodeFrame own (START_MARKER :: (c0 :: c1 :: c2 :: c3 :: more ++ [END_MARKER])) = _
    rw [decodeFrame, if_pos rfl, hsplit]

/-- Decoding undoes the encoding of a message (R79, R92). -/
theorem decodeFrame_canonicalFrame (own a c : Byte) :
    decodeFrame own (canonicalFrame a c) = .ok (decodeMessage own a c, []) := by
  rw [canonicalFrame_eq_wireFrame, decodeFrame_eq_ok_iff]
  refine ⟨_, _, _, _, [], endMarker_notMem_hexDigits a c, rfl, ?_⟩
  rw [decodePayload, hexByte_hexDigits, hexByte_hexDigits]

/-! ### The decode map of messages (R82) -/

theorem decodeMessage_setOn (own c : Byte) : decodeMessage own ADDR_SET_ON c = .setOn c := if_pos rfl

theorem decodeMessage_setOff (own c : Byte) : decodeMessage own ADDR_SET_OFF c = .setOff c := rfl

theorem decodeMessage_own (p : Params) (c : Byte) : decodeMessage p.ownByte p.ownByte c = .chMask c := by
  obtain ⟨hon, hoff⟩ := ownByte_ne p
  rw [decodeMessage, if_neg hon, if_neg hoff, if_pos rfl]

theorem decodeMessage_other {own a : Byte} (c : Byte) (hon : a ≠ ADDR_SET_ON) (hoff : a ≠ ADDR_SET_OFF) (hown : a ≠ own) :
    decodeMessage own a c = .pass a c := by
  rw [decodeMessage, if_neg hon, if_neg hoff, if_neg hown]

theorem wellFormed_pass_iff (p : Params) (a c : Byte) :
    wellFormed p (.pass a c) = true ↔ a ≠ ADDR_SET_ON ∧ a ≠ ADDR_SET_OFF ∧ a ≠ p.ownByte := by
  simp only [wellFormed, Bool.and_eq_true, bne_iff_ne, and_assoc]

/-! ### The decode map of bytes (R76) -/

theorem decodeByte_listening_of_ne {b : Byte} (len : BitVec 6) (h : b ≠ START_MARKER) : decodeByte .listening len b = .fdSkip b :=
  if_neg h

theorem decodeByte_data {b : Byte} {len : BitVec 6} (h : b ≠ END_MARKER) (hlen : len.toNat < 31) :
    decodeByte .accumulating len b = .fdData b := by
  rw [decodeByte, if_neg h, if_pos (show len.toNat < DATA_CAP from hlen)]

theorem decodeByte_drop {b : Byte} {len : BitVec 6} (h : b ≠ END_MARKER) (hlen : 31 ≤ len.toNat) :
    decodeByte .accumulating len b = .fdDrop b := by
  rw [decodeByte, if_neg h, if_neg (show ¬ len.toNat < DATA_CAP from Nat.not_lt.2 hlen)]

/-! ### Round trips -/

/-- Settles O54: a byte-level operation by its row of R76, a wire command by the round trip of its message. -/
theorem decodeOfEncodeIsTheOperation : Obligations.DecodeOfEncodeIsTheOperation := by
  intro p i w hwf hencode
  cases i <;> cases hencode
  case fdStart => exact fun _ => rfl
  case fdSkip b => exact fun len => congrArg (fun i => [i]) (decodeByte_listening_of_ne len (bne_iff_ne.1 hwf))
  case fdEnd => exact fun _ => rfl
  case fdData b => exact fun len hlen => congrArg (fun i => [i]) (decodeByte_data (bne_iff_ne.1 hwf) hlen)
  case fdDrop b => exact fun len hlen => congrArg (fun i => [i]) (decodeByte_drop (bne_iff_ne.1 hwf) hlen.ge)
  case setOn c => exact (decodeFrame_canonicalFrame _ _ c).trans (by rw [decodeMessage_setOn])
  case setOff c => exact (decodeFrame_canonicalFrame _ _ c).trans (by rw [decodeMessage_setOff])
  case chMask c => exact (decodeFrame_canonicalFrame _ _ c).trans (by rw [decodeMessage_own])
  case pass a c =>
    obtain ⟨hon, hoff, hown⟩ := (wellFormed_pass_iff p a c).1 hwf
    exact (decodeFrame_canonicalFrame _ a c).trans (by rw [decodeMessage_other c hon hoff hown])

/-- The byte-level half of O55: each row of R76 in turn. -/
theorem wellFormed_encode_decodeByte (p : Params) (fd : FdState) (len : BitVec 6) (b : Byte) :
    wellFormed p (decodeByte fd len b) = true ∧ encode p (decodeByte fd len b) = some [b] := by
  cases fd with
  | listening =>
    by_cases hb : b = START_MARKER
    · subst hb
      exact ⟨rfl, rfl⟩
    · rw [decodeByte_listening_of_ne len hb]
      exact ⟨bne_iff_ne.2 hb, rfl⟩
  | accumulating =>
    by_cases hb : b = END_MARKER
    · subst hb
      exact ⟨rfl, rfl⟩
    · rcases Nat.lt_or_ge len.toNat 31 with hlen | hlen
      · rw [decodeByte_data hb hlen]
        exact ⟨bne_iff_ne.2 hb, rfl⟩
      · rw [decodeByte_drop hb hlen]
        exact ⟨bne_iff_ne.2 hb, rfl⟩

/-- The message-level half of O55: each row of R82 in turn. -/
theorem wellFormed_encode_decodeMessage (p : Params) (a c : Byte) :
    wellFormed p (decodeMessage p.ownByte a c) = true ∧
    encode p (decodeMessage p.ownByte a c) = some (canonicalFrame a c) := by
  by_cases hon : a = ADDR_SET_ON
  · rw [hon, decodeMessage_setOn]
    exact ⟨rfl, rfl⟩
  by_cases hoff : a = ADDR_SET_OFF
  · rw [hoff, decodeMessage_setOff]
    exact ⟨rfl, rfl⟩
  by_cases hown : a = p.ownByte
  · rw [hown, decodeMessage_own]
    exact ⟨rfl, rfl⟩
  · rw [decodeMessage_other c hon hoff hown]
    exact ⟨(wellFormed_pass_iff p a c).2 ⟨hon, hoff, hown⟩, rfl⟩

/-- Settles O55. -/
theorem encodeOfDecodeIsTheWord : Obligations.EncodeOfDecodeIsTheWord := fun p =>
  ⟨wellFormed_encode_decodeByte p, wellFormed_encode_decodeMessage p⟩

/-- A table word of 16 bits is read as its message (log 13). -/
theorem decodeTableWord_message (w : Nat) :
    decodeTableWord 16 w = some (decodeMessage Config.device.ownByte (BitVec.ofNat 8 (w / 256)) (BitVec.ofNat 8 w)) := by
  rw [decodeTableWord, if_neg (by decide), if_pos rfl, decodeFrame_canonicalFrame]

/-- Settles O56: bytes by the table of R76, messages by that of R82. -/
theorem wordsDecodeToTheirOperations : Obligations.WordsDecodeToTheirOperations := by
  refine ⟨rfl, rfl, decodeByte_data (by decide) (by decide), decodeByte_drop (by decide) (by decide), ?setOn, ?setOff, ?chMask, ?pass⟩
  case setOn => exact (decodeTableWord_message 0xFF19).trans (congrArg some (decodeMessage_setOn _ 0x19))
  case setOff => exact (decodeTableWord_message 0xFE0A).trans (congrArg some (decodeMessage_setOff _ 0x0A))
  case chMask => exact decodeFrame_canonicalFrame 0x01 0x01 0x94
  case pass => exact decodeFrame_canonicalFrame 0x01 0x02 0x01

/-! ### MSGDEC -/

/-- Settles O13: each field is HEXBYTE of its two digits. -/
theorem msgDecOfCanonicalDigits : Obligations.MsgDecOfCanonicalDigits := by
  intro a c s hbuf
  obtain ⟨h0, h1, h2, h3⟩ : s.buf[0] = hexDigit (a.extractLsb' 4 4) ∧ s.buf[1] = hexDigit (a.extractLsb' 0 4) ∧
      s.buf[2] = hexDigit (c.extractLsb' 4 4) ∧ s.buf[3] = hexDigit (c.extractLsb' 0 4) := by
    simpa [hexDigits] using hbuf
  have haddress : s.msgAddress = a := (congrArg₂ hexByte h0 h1).trans (hexByte_hexDigits a)
  have hcommand : s.msgCommand = c := (congrArg₂ hexByte h2 h3).trans (hexByte_hexDigits c)
  show Host.Outcome.next (s.setRet (.message s.msgAddress s.msgCommand)) = _
  rw [haddress, hcommand]
  rfl

end Sys2Proof
end

section
/-! PROOFS. 30_encoding.md section 1: frames as the decoder delimits them (R77), in one cycle and over several (R108). -/

namespace Sys2Proof.Machine

/-! ### The rows of R76 that markers select -/

theorem fdRx_startMarker (p : Params) {s : State} (h : s.fdState = .listening) : fdRx p START_MARKER s = fdStart s := by
  simp only [fdRx, h, if_true]

theorem fdRx_endMarker (p : Params) {s : State} (h : s.fdState = .accumulating) : fdRx p END_MARKER s = fdEnd p s := by
  simp only [fdRx, h, if_true]

theorem fdRx_of_listening (p : Params) {b : Byte} {s : State} (h : s.fdState = .listening) (hb : b ≠ START_MARKER) :
    fdRx p b s = s.stampRx := by
  simp only [fdRx, h, if_neg hb, fdSkip]

/-! ### What a buffer holds -/

/-- The buffer of `s` holds `bytes`, and from there on what `old` holds. -/
structure Stored (old : Vector Byte 32) (bytes : List Byte) (s : State) : Prop where
  len_eq : s.len.toNat = bytes.length
  buf_eq : s.buf.toList = bytes ++ old.toList.drop bytes.length

theorem stored_nil {s : State} (h : s.len = 0) : Stored s.buf [] s := ⟨by rw [h]; rfl, rfl⟩

/-- Storing a byte is writing to the place `LEN`, where there is one (R55). -/
theorem toList_bufPut (buf : Vector Byte 32) (len : BitVec 6) (b : Byte) :
    (bufPut buf len b).toList = buf.toList.set len.toNat b := by
  unfold bufPut
  split
  case isTrue hlen => exact Vector.toList_set hlen
  case isFalse hlen => rw [List.set_eq_of_length_le (by rw [Vector.length_toList]; omega)]

theorem Stored.storeByte {old : Vector Byte 32} {bytes : List Byte} {s : State} (h : Stored old bytes s)
    (hroom : bytes.length < 32) (b : Byte) : Stored old (bytes ++ [b]) (s.storeByte b) where
  len_eq := by
    rw [State.storeByte_len, toNat_lenNext, h.len_eq, if_pos hroom, List.length_append, List.length_singleton]
  buf_eq := by
    have hplace : bytes.length < old.toList.length := by rwa [Vector.length_toList]
    rw [State.storeByte_buf, toList_bufPut, h.len_eq, h.buf_eq, List.set_append_right _ _ (Nat.le_refl _), Nat.sub_self,
      List.drop_eq_getElem_cons hplace]
    simp

/-- The stored frame (R126). -/
theorem Stored.frame {old : Vector Byte 32} {bytes : List Byte} {s : State} (h : Stored old bytes s) : s.frame = bytes := by
  rw [State.frame, h.len_eq, h.buf_eq, List.take_left]

theorem Stored.getElem {old : Vector Byte 32} {bytes : List Byte} {s : State} (h : Stored old bytes s) (i : Fin 32) :
    s.buf[i] = if i.val < bytes.length then bytes.getD i.val 0 else old[i] := by
  have hread : s.buf[i] = s.buf.toList.getD i.val 0 := by simp
  rw [hread, h.buf_eq]
  split
  case isTrue hi => exact List.getD_append _ _ _ _ hi
  case isFalse hi =>
    rw [List.getD_append_right _ _ _ _ (Nat.not_lt.1 hi)]
    have hplace : bytes.length + (i.val - bytes.length) = i.val := by omega
    simp [hplace]

/-- The fields of the message that a buffer holds (R79). -/
theorem Stored.msg_eq {old : Vector Byte 32} {c0 c1 c2 c3 : Byte} {more : List Byte} {s : State}
    (h : Stored old (c0 :: c1 :: c2 :: c3 :: more) s) : s.msgAddress = hexByte c0 c1 ∧ s.msgCommand = hexByte c2 c3 := by
  have h0 : s.buf[(0 : Fin 32)] = c0 := by simp [h.getElem]
  have h1 : s.buf[(1 : Fin 32)] = c1 := by simp [h.getElem]
  have h2 : s.buf[(2 : Fin 32)] = c2 := by simp [h.getElem]
  have h3 : s.buf[(3 : Fin 32)] = c3 := by simp [h.getElem]
  exact ⟨congrArg₂ hexByte h0 h1, congrArg₂ hexByte h2 h3⟩

/-! ### From a frame's start marker to its relay

`s₀` is the listening state that the frame meets; its buffer and its `TX` are what the frame is added to. -/

/-- A frame is in progress, of which the payload bytes `got` have come; the first 31 of them are stored (R103, R104). -/
structure Accumulated (s₀ : State) (got : List Byte) (s : State) : Prop where
  accumulating : s.fdState = .accumulating
  stored : Stored s₀.buf (got.take 31) s
  tx_eq : s.tx = s₀.tx

/-- The frame of that payload has been stored with its end marker, and relayed once (R77). -/
structure Relayed (p : Params) (s₀ : State) (payload : List Byte) (s : State) : Prop where
  listening : s.fdState = .listening
  stored : Stored s₀.buf (payload.take 31 ++ [END_MARKER]) s
  tx_eq : s.tx = s₀.tx ++ (wireFrame (payload.take 31) ++ p.lineTerm)

theorem accumulated_fdStart (s : State) : Accumulated s [] (fdStart s) :=
  ⟨rfl, stored_nil (s := fdStart s) rfl, rfl⟩

/-- A byte that fits is stored, one that does not is dropped (R103, R104). -/
theorem Accumulated.fdRx {s₀ s : State} {got : List Byte} (h : Accumulated s₀ got s) (p : Params) {b : Byte} (hb : b ≠ END_MARKER) :
    Accumulated s₀ (got ++ [b]) (fdRx p b s) := by
  have hlen := h.stored.len_eq
  rw [List.length_take] at hlen
  rcases fdRx_cases p b s with ⟨hfd, _⟩ | ⟨hfd, _⟩ | ⟨_, he, _⟩ | ⟨hacc, _, hfits, e⟩ | ⟨hacc, _, hfull, e⟩
  · exact nomatch hfd.symm.trans h.accumulating
  · exact nomatch hfd.symm.trans h.accumulating
  · exact absurd he hb
  · have htake : (got ++ [b]).take 31 = got.take 31 ++ [b] := by
      rw [List.take_append, List.take_of_length_le (l := [b]) (by rw [List.length_singleton]; omega)]
    have hstored := h.stored.storeByte (by rw [List.length_take]; omega) b
    rw [e]
    exact ⟨hacc, htake ▸ ⟨hstored.len_eq, hstored.buf_eq⟩, h.tx_eq⟩
  · have htake : (got ++ [b]).take 31 = got.take 31 := List.take_append_of_le_length (by omega)
    rw [e]
    exact ⟨hacc, htake ▸ ⟨h.stored.len_eq, h.stored.buf_eq⟩, h.tx_eq⟩

/-- The state in which FD.END dispatches (R105). -/
def State.endFrame (s : State) : State := ((s.storeByte END_MARKER).stampRx).setFd .listening

theorem fdEnd_eq (p : Params) (s : State) :
    fdEnd p s = relay p (route p s.endFrame.msgAddress s.endFrame.msgCommand s.endFrame) := rfl

theorem Accumulated.stored_endFrame {s₀ s : State} {got : List Byte} (h : Accumulated s₀ got s) :
    Stored s₀.buf (got.take 31 ++ [END_MARKER]) s.endFrame := by
  have hstored := h.stored.storeByte (by rw [List.length_take]; omega) END_MARKER
  exact ⟨hstored.len_eq, hstored.buf_eq⟩

/-- The end marker makes the decoder dispatch and relay the stored frame (R105, R126). -/
theorem Accumulated.fdEnd {s₀ s : State} {got : List Byte} (h : Accumulated s₀ got s) (p : Params) :
    Relayed p s₀ got (fdEnd p s) := by
  have hend := h.stored_endFrame
  obtain ⟨v, w, x, y, z, hroute⟩ := route_keeps p s.endFrame.msgAddress s.endFrame.msgCommand s.endFrame
  rw [fdEnd_eq, hroute]
  refine ⟨rfl, ⟨hend.len_eq, hend.buf_eq⟩, ?_⟩
  show s.tx ++ ([START_MARKER] ++ s.endFrame.frame ++ p.lineTerm) = _
  rw [hend.frame, h.tx_eq, wireFrame, List.append_assoc [START_MARKER] (got.take 31)]

/-- Of the frame with that payload the bytes `rest` are still to come: all of it, or the rest of a frame in progress, or nothing. -/
def FrameDue (p : Params) (s₀ : State) (payload rest : List Byte) (s : State) : Prop :=
  (rest = wireFrame payload ∧ s.fdState = .listening ∧ s.buf = s₀.buf ∧ s.tx = s₀.tx) ∨
  (∃ got todo : List Byte, payload = got ++ todo ∧ rest = todo ++ [END_MARKER] ∧ Accumulated s₀ got s) ∨
  (rest = [] ∧ Relayed p s₀ payload s)

section

variable {p : Params} {s₀ s : State} {payload rest : List Byte}

theorem frameDue_of_listening (p : Params) (payload : List Byte) (h : s.fdState = .listening) :
    FrameDue p s payload (wireFrame payload) s := .inl ⟨rfl, h, rfl, rfl⟩

theorem FrameDue.relayed (h : FrameDue p s₀ payload [] s) : Relayed p s₀ payload s := by
  rcases h with ⟨hrest, _⟩ | ⟨_, _, _, hrest, _⟩ | ⟨_, hrelayed⟩
  · cases hrest
  · exact absurd hrest.symm (List.concat_ne_nil _ _)
  · exact hrelayed

/-- Only the registers of the decoder and `TX` matter. -/
theorem FrameDue.congr {t : State} (h : FrameDue p s₀ payload rest s) (hfd : t.fdState = s.fdState) (hbuf : t.buf = s.buf)
    (hlen : t.len = s.len) (htx : t.tx = s.tx) : FrameDue p s₀ payload rest t := by
  have hstored : ∀ bytes, Stored s₀.buf bytes s → Stored s₀.buf bytes t := fun bytes hs =>
    ⟨hlen ▸ hs.len_eq, hbuf ▸ hs.buf_eq⟩
  rcases h with ⟨hrest, hl, hb, ht⟩ | ⟨got, todo, hpayload, hrest, hacc⟩ | ⟨hrest, hrel⟩
  · exact .inl ⟨hrest, hfd.trans hl, hbuf.trans hb, htx.trans ht⟩
  · exact .inr (.inl ⟨got, todo, hpayload, hrest, hfd.trans hacc.accumulating, hstored _ hacc.stored, htx.trans hacc.tx_eq⟩)
  · exact .inr (.inr ⟨hrest, hfd.trans hrel.listening, hstored _ hrel.stored, htx.trans hrel.tx_eq⟩)

/-- The next byte of the frame comes. -/
theorem FrameDue.fdRx {b : Byte} (hno : END_MARKER ∉ payload) (h : FrameDue p s₀ payload (b :: rest) s) :
    FrameDue p s₀ payload rest (fdRx p b s) := by
  rcases h with ⟨hrest, hl, hb, ht⟩ | ⟨got, todo, hpayload, hrest, hacc⟩ | ⟨hrest, _⟩
  · obtain ⟨rfl, rfl⟩ := List.cons.inj hrest
    have hstart := accumulated_fdStart s
    rw [fdRx_startMarker p hl]
    exact .inr (.inl ⟨[], payload, rfl, rfl, rfl, hb ▸ hstart.stored, ht⟩)
  · cases todo with
    | nil =>
      obtain ⟨rfl, rfl⟩ := List.cons.inj hrest
      rw [List.append_nil] at hpayload
      rw [fdRx_endMarker p hacc.accumulating, hpayload]
      exact .inr (.inr ⟨rfl, hacc.fdEnd p⟩)
    | cons c todo =>
      obtain ⟨rfl, rfl⟩ := List.cons.inj hrest
      have hb : b ≠ END_MARKER := fun e => hno (by rw [hpayload, e]; exact List.mem_append_right _ List.mem_cons_self)
      exact .inr (.inl ⟨got ++ [b], todo, by rw [hpayload, List.append_assoc]; rfl, rfl, hacc.fdRx p hb⟩)
  · cases hrest

/-- The next bytes of the frame come, in one cycle. -/
theorem FrameDue.drain {rx : List Byte} (hno : END_MARKER ∉ payload) (h : FrameDue p s₀ payload (rx ++ rest) s) :
    FrameDue p s₀ payload rest (drain p rx s) := by
  induction rx generalizing s with
  | nil => exact h
  | cons b rx ih => exact ih (h.fdRx hno)

/-- A cycle with the next bytes of the frame, in time for them (R108). -/
theorem FrameDue.cycle {rx : List Byte} {now : Time} (hno : END_MARKER ∉ payload) (hintime : (s.sample p now).timeoutDue p = false)
    (h : FrameDue p s₀ payload (rx ++ rest) s) : FrameDue p s₀ payload rest (cycle p now rx s) := by
  have hkept : fdTimeout p (s.sample p now) = s.sample p now := if_neg (Bool.eq_false_iff.1 hintime)
  have hdrain : FrameDue p s₀ payload rest (Machine.drain p rx (s.sample p now)) :=
    FrameDue.drain hno (h.congr rfl rfl rfl rfl)
  rw [Machine.cycle, hkept]
  refine hdrain.congr ?_ ?_ ?_ ?_ <;> simp [curMask]

end

theorem timeoutDue_of_listening (p : Params) {s : State} (h : s.fdState = .listening) : s.timeoutDue p = false := by
  rw [State.timeoutDue, h]
  rfl

theorem fdTimeout_of_listening (p : Params) {s : State} (h : s.fdState = .listening) : fdTimeout p s = s :=
  if_neg (Bool.eq_false_iff.1 (timeoutDue_of_listening p h))

/-! ### When a byte last came -/

/-- Every received byte is stamped, whatever it does (R29). -/
theorem fdRx_tLastRx (p : Params) (b : Byte) (s : State) : (fdRx p b s).tLastRx = s.now := by
  rcases fdRx_cases p b s with ⟨_, _, e⟩ | ⟨_, _, e⟩ | ⟨_, _, e⟩ | ⟨_, _, _, e⟩ | ⟨_, _, _, e⟩ <;> rw [e]
  case inr.inr.inl =>
    obtain ⟨v, w, x, y, z, hroute⟩ := route_keeps p s.endFrame.msgAddress s.endFrame.msgCommand s.endFrame
    rw [fdEnd_eq, hroute]
    rfl
  all_goals rfl

theorem drain_tLastRx (p : Params) (rx : List Byte) (s : State) :
    (drain p rx s).tLastRx = if rx = [] then s.tLastRx else s.now := by
  induction rx generalizing s with
  | nil => rfl
  | cons b rx ih =>
    have hnow : (fdRx p b s).now = s.now := (drain_keeps p [b] s).1
    have hrest := ih (fdRx p b s)
    rw [fdRx_tLastRx, hnow, ite_self] at hrest
    rw [if_neg (List.cons_ne_nil b rx)]
    exact hrest

theorem fdTimeout_tLastRx (p : Params) (s : State) : (fdTimeout p s).tLastRx = s.tLastRx := by
  rcases fdTimeout_cases p s with ⟨_, e⟩ | ⟨_, e⟩ <;> rw [e]

theorem cycle_tLastRx (now : Time) (rx : List Byte) (s : State) :
    (cycle Config.device now rx s).tLastRx = if rx = [] then s.tLastRx else sampleOf now := by
  rw [cycle_eq_of_received, curMask, State.setOutMask_tLastRx, pollExp_tLastRx, received, drain_tLastRx, fdTimeout_tLastRx,
    fdTimeout_now]

/-! ### A frame in one cycle -/

/-- The cycle that receives a whole frame while LISTENING relays it. -/
theorem cycle_wireFrame_relayed (now : Time) {payload : List Byte} {s : State} (hl : s.fdState = .listening)
    (hno : END_MARKER ∉ payload) : Relayed Config.device s payload (cycle Config.device now (wireFrame payload) s) := by
  have hdue := frameDue_of_listening Config.device payload hl
  rw [← List.append_nil (wireFrame payload)] at hdue
  exact (hdue.cycle hno (timeoutDue_of_listening _ hl)).relayed

theorem Relayed.len_eq {p : Params} {s₀ s : State} {payload : List Byte} (h : Relayed p s₀ payload s) :
    s.len.toNat = min payload.length 31 + 1 := by
  rw [h.stored.len_eq, List.length_append, List.length_take, List.length_singleton, Nat.min_comm]

/-- The buffer after a frame, place by place. -/
theorem Relayed.getElem {p : Params} {s₀ s : State} {payload : List Byte} (h : Relayed p s₀ payload s) (i : Fin 32) :
    s.buf[i] =
      if i.val < min payload.length 31 then payload.getD i.val 0
      else if i.val = min payload.length 31 then END_MARKER else s₀.buf[i] := by
  have hlen : (payload.take 31).length = min payload.length 31 := by rw [List.length_take, Nat.min_comm]
  rw [h.stored.getElem, List.length_append, hlen, List.length_singleton]
  rcases Nat.lt_trichotomy i.val (min payload.length 31) with hi | hi | hi
  · rw [if_pos (by omega), if_pos hi, List.getD_append _ _ _ _ (hlen ▸ hi), List.getD_eq_getElem?_getD,
      List.getElem?_take_of_lt (by omega), ← List.getD_eq_getElem?_getD]
  · rw [if_pos (by omega), if_neg (by omega), if_pos hi, List.getD_append_right _ _ _ _ (by omega), hi, hlen, Nat.sub_self]
    rfl
  · rw [if_neg (by omega), if_neg (by omega), if_neg (by omega)]

/-- Settles O38. -/
theorem wholeFrameIsStoredAndRelayedOnce : Obligations.WholeFrameIsStoredAndRelayedOnce := by
  intro s now payload hl hno
  have hrelayed := cycle_wireFrame_relayed now hl hno
  have hstamp : (cycle Config.device now (wireFrame payload) s).tLastRx = sampleOf now :=
    (cycle_tLastRx now (wireFrame payload) s).trans (if_neg (List.cons_ne_nil _ _))
  exact ⟨_, rfl, hrelayed.tx_eq, hrelayed.listening, hstamp, hrelayed.len_eq, hrelayed.getElem⟩

/-! ### A frame over several cycles -/

/-- A placed cycle is the next step (R155). -/
theorem step_of_cycle {s : State} {now : Time} {rx : List Byte} {rest : List EnvMove} (h : s.pending = .cycle now rx :: rest) :
    step s = .next (cycle Config.device now rx { s with pending := rest }) := by
  rw [step, State.beforeStep, nextMove_of_pending h, takeMove_of_pending h]
  rfl

theorem cycle_pending (now : Time) (rx : List Byte) (s : State) : (cycle Config.device now rx s).pending = s.pending := by
  obtain ⟨_, _, hdrain, _⟩ := drain_keeps Config.device rx (fdTimeout Config.device (s.sample Config.device now))
  have htimeout : (fdTimeout Config.device (s.sample Config.device now)).pending = s.pending := by
    rcases fdTimeout_cases Config.device (s.sample Config.device now) with ⟨_, e⟩ | ⟨_, e⟩ <;> rw [e] <;> rfl
  simp only [cycle, curMask, State.setOutMask_pending, pollExp_pending, hdrain, htimeout]

/-- The step of a placed cycle that brings the next bytes of a frame, in time for them (R108). -/
theorem FrameDue.step {s₀ s : State} {payload rx rest : List Byte} {now : Time} {moves : List EnvMove} (hno : END_MARKER ∉ payload)
    (hpending : s.pending = .cycle now rx :: moves) (hintime : (s.sample Config.device now).timeoutDue Config.device = false)
    (h : FrameDue Config.device s₀ payload (rx ++ rest) s) :
    ∃ t : State, step s = .next t ∧ FrameDue Config.device s₀ payload rest t ∧ t.pending = moves ∧
      t.tLastRx = if rx = [] then s.tLastRx else sampleOf now :=
  ⟨_, step_of_cycle hpending, FrameDue.cycle hno hintime (h.congr rfl rfl rfl rfl), cycle_pending now rx _, cycle_tLastRx now rx _⟩

/-- No frame is abandoned at most 1000 ms after its last byte (R106). -/
theorem timeoutDue_of_gap {s : State} {now last : Time} (hgap : elapsedMs now last ≤ 1000) (hlast : s.tLastRx = sampleOf last) :
    (s.sample Config.device now).timeoutDue Config.device = false := by
  refine Bool.eq_false_iff.2 fun hdue => ?_
  obtain ⟨_, hlate⟩ := (timeoutDue_iff _).1 hdue
  rw [sample_eq] at hlate
  simp only [hlast, elapsedMs_sampleOf, elapsedMs_sampleOf_right] at hlate
  omega

/-- Cycles without too long a gap, which deliver the rest of a frame, complete it: one cycle after the other (R108). -/
theorem run_relayed {s₀ : State} {payload : List Byte} (hno : END_MARKER ∉ payload) (cycles : List (Time × List Byte)) (last : Time)
    (s : State) (hpending : s.pending = asMoves cycles) (hgaps : gapsShort last cycles) (hlast : s.tLastRx = sampleOf last)
    (hdue : FrameDue Config.device s₀ payload (cycles.map Prod.snd).flatten s) :
    ∃ t : State, Host.Core.run core cycles.length s = .next t ∧ Relayed Config.device s₀ payload t := by
  induction cycles generalizing last s with
  | nil => exact ⟨s, rfl, hdue.relayed⟩
  | cons c cycles ih =>
    obtain ⟨now, rx⟩ := c
    obtain ⟨hgap, hgaps⟩ := hgaps
    obtain ⟨u, hstep, hdue, hpending, hstamp⟩ := FrameDue.step hno hpending (timeoutDue_of_gap hgap hlast) hdue
    rw [hlast, ← apply_ite sampleOf] at hstamp
    obtain ⟨t, hrun, hrelayed⟩ := ih _ u hpending hgaps hstamp hdue
    exact ⟨t, (run_of_step _ s u hstep).trans hrun, hrelayed⟩

/-- Settles O40: the first cycle meets a listening decoder, the others come in time. -/
theorem splitFrameIsRelayedOnce : Obligations.SplitFrameIsRelayedOnce := by
  intro s now rx rest payload hl hno hbytes hgaps
  have hdue := (frameDue_of_listening Config.device payload hl).congr
    (t := { s with pending := asMoves ((now, START_MARKER :: rx) :: rest) }) rfl rfl rfl rfl
  rw [← hbytes] at hdue
  have hl' : (({ s with pending := asMoves ((now, START_MARKER :: rx) :: rest) } : State).sample Config.device now).fdState =
      .listening := hl
  obtain ⟨u, hstep, hdue, hpending, hstamp⟩ := FrameDue.step hno rfl (timeoutDue_of_listening _ hl') hdue
  rw [if_neg (List.cons_ne_nil _ _)] at hstamp
  obtain ⟨t, hrun, hrelayed⟩ := run_relayed hno rest now u hpending hgaps hstamp hdue
  exact ⟨t, (run_of_step _ _ u hstep).trans hrun, hrelayed.tx_eq, hrelayed.listening, hrelayed.len_eq, hrelayed.stored.frame⟩

end Sys2Proof.Machine
end

section
/-! PROOFS. 30_encoding.md sections 2 and 5: the command that a whole frame runs (R79, R82, R87), and bytes outside any frame (R89). -/

namespace Sys2Proof.Machine

/-! ### The wire side and the rest of the device

The decoder's registers and `TX` are one side of the device, its configuration, its store and its channels the other. A byte that ends
no frame touches only the first; the commands and POLLEXP touch only the second and do not read the first. -/

/-- `s` with the decoder's registers and the `TX` of `d`. -/
def State.withWire (s d : State) : State :=
  { s with fdState := d.fdState, buf := d.buf, len := d.len, tLastRx := d.tLastRx, tx := d.tx }

theorem fdRx_eq_withWire (p : Params) {b : Byte} (hb : b ≠ END_MARKER) (s : State) : fdRx p b s = s.withWire (fdRx p b s) := by
  rcases fdRx_cases p b s with ⟨_, _, e⟩ | ⟨_, _, e⟩ | ⟨_, he, _⟩ | ⟨_, _, _, e⟩ | ⟨_, _, _, e⟩
  case inr.inr.inl => exact absurd he hb
  all_goals rw [e]; rfl

theorem drain_eq_withWire (p : Params) {rx : List Byte} (h : END_MARKER ∉ rx) (s : State) :
    drain p rx s = s.withWire (drain p rx s) := by
  induction rx generalizing s with
  | nil => rfl
  | cons b rx ih =>
    obtain ⟨hb, hrx⟩ := List.ne_and_not_mem_of_not_mem_cons h
    calc drain p rx (fdRx p b s)
        = (fdRx p b s).withWire (drain p rx (fdRx p b s)) := ih hrx _
      _ = (s.withWire (fdRx p b s)).withWire (drain p rx (fdRx p b s)) := by rw [← fdRx_eq_withWire p hb.symm s]

/-- What an operation does where a test holds, and nothing elsewhere. -/
theorem ite_withWire (c : Prop) [Decidable c] {f : State → State} {s d : State} (hf : f (s.withWire d) = (f s).withWire d) :
    (if c then f (s.withWire d) else s.withWire d) = (if c then f s else s).withWire d := by
  split
  · exact hf
  · rfl

theorem reqOn_withWire (p : Params) (i : Chan) (s d : State) : reqOn p i (s.withWire d) = (reqOn p i s).withWire d :=
  ite_withWire (s.requestAccepted p i = true) (f := State.setChannel i true) rfl

theorem expire_withWire (p : Params) (i : Chan) (s d : State) : expire p i (s.withWire d) = (expire p i s).withWire d :=
  ite_withWire (s.expiryDue p i = true) (f := State.setChannel i false) rfl

theorem chMask_withWire (p : Params) (c : Byte) (s d : State) : chMask p c (s.withWire d) = (chMask p c s).withWire d :=
  List.foldl_hom (State.withWire · d) fun s i => ite_withWire (requested c i = true) (reqOn_withWire p i s d)

theorem pollExp_withWire (p : Params) (s d : State) : pollExp p (s.withWire d) = (pollExp p s).withWire d :=
  List.foldl_hom (State.withWire · d) fun s i => expire_withWire p i s d

theorem setOn_withWire (p : Params) (c : Byte) (s d : State) : setOn p c (s.withWire d) = (setOn p c s).withWire d := rfl

theorem setOff_withWire (p : Params) (c : Byte) (s d : State) : setOff p c (s.withWire d) = (setOff p c s).withWire d := rfl

theorem route_withWire (p : Params) (a c : Byte) (s d : State) : route p a c (s.withWire d) = (route p a c s).withWire d := by
  simp only [route]
  rw [ite_withWire _ (setOn_withWire p c _ d), ite_withWire _ (setOff_withWire p c _ d), ite_withWire _ (chMask_withWire p c _ d)]

/-- What a message selects is what DISPATCH runs (R82, R121). -/
theorem exec_decodeMessage (a c : Byte) (s : State) :
    exec (decodeMessage Config.device.ownByte a c) s = .next (route Config.device a c s) := by
  rcases route_cases Config.device a c s with ⟨ha, e⟩ | ⟨ha, e⟩ | ⟨ha, e⟩ | ⟨hon, hoff, hown, e⟩ <;> rw [e]
  · rw [ha, decodeMessage_setOn]
    rfl
  · rw [ha, decodeMessage_setOff]
    rfl
  · rw [ha, decodeMessage_own]
    rfl
  · rw [decodeMessage_other c hon hoff hown]
    rfl

/-! ### The command of a whole frame -/

theorem FrameDue.accumulated {p : Params} {s₀ s : State} {payload : List Byte} (h : FrameDue p s₀ payload [END_MARKER] s) :
    Accumulated s₀ payload s := by
  rcases h with ⟨hrest, _⟩ | ⟨got, todo, hpayload, hrest, hacc⟩ | ⟨hrest, _⟩
  · cases hrest
  · rw [← List.nil_append [END_MARKER]] at hrest
    obtain ⟨rfl, _⟩ := List.append_inj' hrest rfl
    rwa [hpayload, List.append_nil]
  · cases hrest

/-- The end of a frame whose bytes have touched the wire side only: beyond that side its command alone has run (R79, R87). -/
theorem Accumulated.fdEnd_eq_withWire {s₀ s : State} {c0 c1 c2 c3 : Byte} {more : List Byte}
    (h : Accumulated s₀ (c0 :: c1 :: c2 :: c3 :: more) s) (p : Params) (hside : s = s₀.withWire s) :
    Machine.fdEnd p s = (route p (hexByte c0 c1) (hexByte c2 c3) s₀).withWire (Machine.fdEnd p s) := by
  obtain ⟨haddress, hcommand⟩ := h.stored_endFrame.msg_eq
  have hend : s.endFrame = s₀.withWire s.endFrame :=
    calc s.endFrame = s.withWire s.endFrame := rfl
      _ = (s₀.withWire s).withWire s.endFrame := by rw [← hside]
  calc Machine.fdEnd p s
      = (route p (hexByte c0 c1) (hexByte c2 c3) s.endFrame).withWire (Machine.fdEnd p s) := by
        rw [fdEnd_eq, haddress, hcommand]
        rfl
    _ = (route p (hexByte c0 c1) (hexByte c2 c3) s₀).withWire (Machine.fdEnd p s) := by
        rw [hend, route_withWire]
        rfl

/-- On the other side of the device the bytes of a whole frame do what its command does. -/
theorem drain_wireFrame (p : Params) {c0 c1 c2 c3 : Byte} {more : List Byte} {s : State} (hl : s.fdState = .listening)
    (hno : END_MARKER ∉ c0 :: c1 :: c2 :: c3 :: more) :
    ∃ d : State, drain p (wireFrame (c0 :: c1 :: c2 :: c3 :: more)) s = (route p (hexByte c0 c1) (hexByte c2 c3) s).withWire d := by
  have hacc : Accumulated s (c0 :: c1 :: c2 :: c3 :: more) (drain p (START_MARKER :: c0 :: c1 :: c2 :: c3 :: more) s) :=
    (FrameDue.drain hno (frameDue_of_listening p _ hl)).accumulated
  have hside := drain_eq_withWire p (List.not_mem_cons_of_ne_of_not_mem (by decide : END_MARKER ≠ START_MARKER) hno) s
  refine ⟨_, Eq.trans ?_ (hacc.fdEnd_eq_withWire p hside)⟩
  rw [wireFrame, drain_append]
  exact fdRx_endMarker p hacc.accumulating

/-- The configuration, the store and the channels at the end of a cycle. -/
theorem curMask_withWire_keeps (s d : State) :
    (curMask (s.withWire d)).onMs = s.onMs ∧ (curMask (s.withWire d)).offMs = s.offMs ∧ (curMask (s.withWire d)).nv = s.nv ∧
    (curMask (s.withWire d)).chOn = s.chOn ∧ (curMask (s.withWire d)).chT = s.chT := ⟨rfl, rfl, rfl, rfl, rfl⟩

/-- Settles O39: what the frame's command leaves, POLLEXP finds. -/
theorem wholeFrameRunsItsCommand : Obligations.WholeFrameRunsItsCommand := by
  intro s now w i hl hdecode
  obtain ⟨c0, c1, c2, c3, more, hno, rfl, rfl⟩ := (decodeFrame_eq_ok_iff _ _ _).1 hdecode
  have hl' : (s.sample Config.device now).fdState = .listening := hl
  obtain ⟨d, hdrain⟩ := drain_wireFrame Config.device hl' hno
  have hcycle : cycle Config.device now (wireFrame (c0 :: c1 :: c2 :: c3 :: more)) s =
      curMask ((pollExp Config.device (route Config.device (hexByte c0 c1) (hexByte c2 c3) (s.sample Config.device now))).withWire d) := by
    rw [cycle, fdTimeout_of_listening _ hl', hdrain, pollExp_withWire]
  exact ⟨_, _, pollExp Config.device _, congrArg Host.Outcome.next hcycle, exec_decodeMessage _ _ _, rfl, curMask_withWire_keeps _ d⟩

/-! ### Bytes outside any frame -/

/-- Bytes that open no frame are stamped, no more (R89). -/
theorem drain_of_listening (p : Params) {rx : List Byte} {s : State} (hl : s.fdState = .listening) (hno : START_MARKER ∉ rx)
    (hne : rx ≠ []) : drain p rx s = s.stampRx := by
  induction rx generalizing s with
  | nil => exact absurd rfl hne
  | cons b rx ih =>
    obtain ⟨hb, hrx⟩ := List.ne_and_not_mem_of_not_mem_cons hno
    show drain p rx (fdRx p b s) = s.stampRx
    rw [fdRx_of_listening p hl hb.symm]
    by_cases hlast : rx = []
    · rw [hlast]
      rfl
    · exact ih (s := s.stampRx) hl hrx hlast

theorem drain_nil (p : Params) (s : State) : drain p [] s = s := rfl

theorem curMask_stampRx (s : State) : curMask s.stampRx = (curMask s).stampRx := rfl

/-- POLLEXP does not read `T_LAST_RX`. -/
theorem pollExp_stampRx (p : Params) (s : State) : pollExp p s.stampRx = (pollExp p s).stampRx := by
  have hwire := pollExp_withWire p s s.stampRx
  rw [pollExp_shape p s] at hwire ⊢
  exact hwire

/-- Settles O42: the bytes are stamped, and neither POLLEXP nor CURMASK reads the stamp. -/
theorem bytesOutsideFramesAreIgnored : Obligations.BytesOutsideFramesAreIgnored := by
  intro s now rx hl hno hne
  have hl' : (s.sample Config.device now).fdState = .listening := hl
  have hidle : cycle Config.device now [] s = curMask (pollExp Config.device (s.sample Config.device now)) := by
    rw [cycle, fdTimeout_of_listening _ hl', drain_nil]
  have hstamped : cycle Config.device now rx s = (cycle Config.device now [] s).stampRx := by
    rw [hidle, cycle, fdTimeout_of_listening _ hl', drain_of_listening _ hl' hno hne, pollExp_stampRx, curMask_stampRx]
  have hnow : (cycle Config.device now [] s).now = sampleOf now := by
    rw [hidle, curMask, State.setOutMask_now, pollExp_now, sample_eq]
  exact ⟨_, rfl, congrArg Host.Outcome.next (hnow ▸ hstamped)⟩

end Sys2Proof.Machine
end

section
/-! PROOFS. 40_frame_decoder.md: what each operation of the frame decoder does to each field (R101 to R106), which of them a byte selects
(R100, R76), the frame that a cycle finds stalled (R175), and the transitions of `FD_STATE` (R107). -/

namespace Sys2Proof.Machine

/-! ### Selection -/

/-- FD.RX runs the row of R76 that the byte meets (R100). -/
theorem exec_fdRx_eq_exec_decodeByte (b : Byte) (s : State) : exec (.fdRx b) s = exec (decodeByte s.fdState s.len b) s := by
  show Host.Outcome.next (fdRx Config.device b s) = _
  rcases fdRx_cases Config.device b s with ⟨hfd, hb, e⟩ | ⟨hfd, hb, e⟩ | ⟨hfd, hb, e⟩ | ⟨hfd, hb, hlen, e⟩ | ⟨hfd, hb, hlen, e⟩ <;>
    rw [e, hfd]
  · rw [hb]
    rfl
  · rw [decodeByte_listening_of_ne _ hb]
    rfl
  · rw [hb]
    rfl
  · rw [decodeByte_data hb hlen]
    exact (congrArg Host.Outcome.next (if_pos hlen)).symm
  · rw [decodeByte_drop hb hlen]
    rfl

/-- The operation that a byte selects in a known decoder state, by its row of R76. -/
theorem exec_fdRx_of_decodeByte {b : Byte} {s : State} {fd : FdState} {i : Instr} (hfd : s.fdState = fd)
    (hrow : decodeByte fd s.len b = i) : exec (.fdRx b) s = exec i s := by
  rw [exec_fdRx_eq_exec_decodeByte, hfd, hrow]

/-- The table of R76 in one formula. -/
theorem decodeByte_eq_table (fd : FdState) (len : BitVec 6) (b : Byte) :
    decodeByte fd len b =
      if fd = .listening then (if b = START_MARKER then .fdStart else .fdSkip b)
      else if b = END_MARKER then .fdEnd else if len.toNat < 31 then .fdData b else .fdDrop b := by
  cases fd with
  | listening => rfl
  | accumulating => rfl

/-! ### One byte -/

/-- Settles O1. -/
theorem fdStartOpensAnEmptyFrame : Obligations.FdStartOpensAnEmptyFrame := fun _ =>
  ⟨rfl, fun hl => exec_fdRx_of_decodeByte hl rfl⟩

/-- Settles O2. -/
theorem fdSkipKeepsOnlyTheTime : Obligations.FdSkipKeepsOnlyTheTime := fun _ _ =>
  ⟨rfl, fun hl hb => exec_fdRx_of_decodeByte hl (decodeByte_listening_of_ne _ hb)⟩

/-- Settles O4. -/
theorem fdDropKeepsOnlyTheTime : Obligations.FdDropKeepsOnlyTheTime := fun _ _ =>
  ⟨rfl, fun hacc hb hlen => exec_fdRx_of_decodeByte hacc (decodeByte_drop hb hlen.ge)⟩

/-- What storing a byte leaves at each place (R55). -/
theorem getElem_storeByte (b : Byte) (s : State) (i : Fin 32) :
    (s.storeByte b).buf[i] = if i.val = s.len.toNat then b else s.buf[i] := getElem_bufPut s.buf s.len b i.val i.isLt

/-- Where there is a place for a byte, storing it adds one to `LEN` (R37, R55). -/
theorem toNat_len_storeByte {s : State} (b : Byte) (h : s.len.toNat < 32) : (s.storeByte b).len.toNat = s.len.toNat + 1 := by
  rw [State.storeByte_len, toNat_lenNext, if_pos h]

/-- FD.DATA within its precondition (R103). -/
theorem fdData_of_room (b : Byte) {s : State} (h : s.len.toNat < 31) : fdData b s = (s.storeByte b).stampRx := if_pos h

/-- Settles O3: within its precondition FD.DATA is storing a byte, then stamping it. -/
theorem fdDataStoresOneByte : Obligations.FdDataStoresOneByte := by
  intro b s hlen
  have hroom : s.len.toNat < 31 := by omega
  have hexec : exec (.fdData b) s = .next (s.storeByte b).stampRx := congrArg Host.Outcome.next (fdData_of_room b hroom)
  refine ⟨⟨_, hexec, rfl, toNat_len_storeByte b (by omega), getElem_storeByte b s⟩, fun hacc hb => ?selects⟩
  case selects => exact exec_fdRx_of_decodeByte hacc (decodeByte_data hb hroom)

/-- Settles O5: FD.END is DISPATCH in the state `endFrame`, whose buffer holds the end marker last. -/
theorem fdEndStoresMarkerAndDispatches : Obligations.FdEndStoresMarkerAndDispatches := by
  intro s hlen
  refine ⟨⟨s.endFrame, _, rfl, rfl, rfl, ?len, getElem_storeByte END_MARKER s⟩, fun hacc => ?selects⟩
  case len => exact toNat_len_storeByte END_MARKER (by omega)
  case selects => exact exec_fdRx_of_decodeByte hacc rfl

/-! ### The timeout -/

/-- FD.TIMEOUT in numbers (R106). -/
theorem fdTimeout_eq_ite (s : State) :
    fdTimeout Config.device s =
      if s.fdState = .accumulating ∧ elapsedMs s.now s.tLastRx > 1000 then { s with len := 0, fdState := .listening } else s := by
  rcases fdTimeout_cases Config.device s with ⟨hnot, e⟩ | ⟨hdue, e⟩ <;> rw [e]
  · exact (if_neg fun hstalled => Bool.eq_false_iff.1 hnot ((timeoutDue_iff s).2 hstalled)).symm
  · exact (if_pos ((timeoutDue_iff s).1 hdue)).symm

/-- Settles O7. -/
theorem fdTimeoutAbandonsAStalledFrame : Obligations.FdTimeoutAbandonsAStalledFrame := fun s =>
  congrArg Host.Outcome.next (fdTimeout_eq_ite s)

/-- After FD.TIMEOUT no byte that comes too late meets a frame in progress (R100, R106). -/
theorem fdTimeout_listening_of_late {s : State} (hlate : elapsedMs s.now s.tLastRx > 1000) :
    (fdTimeout Config.device s).fdState = .listening := by
  cases hfd : s.fdState with
  | listening => rw [fdTimeout_of_listening _ hfd, hfd]
  | accumulating => rw [fdTimeout_eq_ite, if_pos ⟨hfd, hlate⟩]

/-- Settles O8. -/
theorem fdRxRunsTheSelectedOperation : Obligations.FdRxRunsTheSelectedOperation := fun b s =>
  ⟨⟨_, rfl⟩, exec_fdRx_eq_exec_decodeByte b s, decodeByte_eq_table _ _ _, fun hlate => ⟨_, rfl, fdTimeout_listening_of_late hlate⟩⟩

/-- Settles O41: FD.TIMEOUT makes one state of both, that of the discarded frame, before the first byte of the cycle. -/
theorem stalledFrameIsDiscardedFirst : Obligations.StalledFrameIsDiscardedFirst := by
  intro s now rx hacc hlate
  have hstalled : fdTimeout Config.device (s.sample Config.device now) =
      ({ s with len := 0, fdState := .listening } : State).sample Config.device now := by
    rw [fdTimeout_eq_ite, if_pos ⟨hacc, by rwa [sample_eq, elapsedMs_sampleOf]⟩]
    rfl
  have hnone : fdTimeout Config.device (({ s with len := 0, fdState := .listening } : State).sample Config.device now) =
      ({ s with len := 0, fdState := .listening } : State).sample Config.device now :=
    fdTimeout_of_listening _ rfl
  have hcycle : cycle Config.device now rx { s with len := 0, fdState := .listening } = cycle Config.device now rx s := by
    rw [cycle, cycle, hstalled, hnone]
  exact ⟨_, rfl, congrArg Host.Outcome.next hcycle⟩

/-! ### The transitions of `FD_STATE` -/

/-- The command of a message is no control transfer (R122 to R125). -/
@[simp] theorem route_fdState (p : Params) (a c : Byte) (s : State) : (route p a c s).fdState = s.fdState := by
  obtain ⟨_, _, _, _, _, e⟩ := route_keeps p a c s
  rw [e]

/-- Nor is DISPATCH (R121). -/
@[simp] theorem dispatch_fdState (p : Params) (s : State) : (dispatch p s).fdState = s.fdState :=
  route_fdState p s.msgAddress s.msgCommand s

theorem fdEnd_fdState (p : Params) (s : State) : (fdEnd p s).fdState = .listening := dispatch_fdState p s.endFrame

theorem fdData_fdState (b : Byte) (s : State) : (fdData b s).fdState = s.fdState := by
  unfold fdData
  split <;> rfl

/-- A received byte moves `FD_STATE` where it is a marker only (R101 to R105). -/
theorem fdRx_fdState_cases (p : Params) (b : Byte) (s : State) :
    (fdRx p b s).fdState = s.fdState ∨ (b = START_MARKER ∧ (fdRx p b s).fdState = .accumulating) ∨
    (b = END_MARKER ∧ (fdRx p b s).fdState = .listening) := by
  rcases fdRx_cases p b s with ⟨_, hb, e⟩ | ⟨_, _, e⟩ | ⟨_, hb, e⟩ | ⟨_, _, _, e⟩ | ⟨_, _, _, e⟩ <;> rw [e]
  case inl => exact .inr (.inl ⟨hb, rfl⟩)
  case inr.inr.inl => exact .inr (.inr ⟨hb, fdEnd_fdState p s⟩)
  all_goals exact .inl rfl

/-- FD.START and the operations that run it (R100, R101, R156). -/
def opensFrame (i : Instr) : Prop := i = .fdStart ∨ i = .fdRx START_MARKER ∨ ∃ now rx, i = .cycle now rx

/-- FD.END, FD.TIMEOUT, the operations that run them (R100, R105, R106, R156), and INIT (R157). -/
def closesFrame (i : Instr) : Prop :=
  i = .fdEnd ∨ i = .fdTimeout ∨ i = .fdRx END_MARKER ∨ (∃ now rx, i = .cycle now rx) ∨ ∃ now, i = .init now

/-- What an operation can do to `FD_STATE`: nothing, or it opens a frame, or it closes one (R107). -/
theorem exec_fdState_cases (i : Instr) (s t : State) (h : exec i s = .next t) :
    t.fdState = s.fdState ∨ (opensFrame i ∧ t.fdState = .accumulating) ∨ (closesFrame i ∧ t.fdState = .listening) := by
  cases i
  case fdStart => obtain rfl := Host.Outcome.next.inj h; exact .inr (.inl ⟨.inl rfl, rfl⟩)
  case fdEnd => obtain rfl := Host.Outcome.next.inj h; exact .inr (.inr ⟨.inl rfl, fdEnd_fdState _ s⟩)
  case fdTimeout =>
    obtain rfl := Host.Outcome.next.inj h
    rcases fdTimeout_cases Config.device s with ⟨_, e⟩ | ⟨_, e⟩
    · exact .inl (congrArg State.fdState e)
    · exact .inr (.inr ⟨.inr (.inl rfl), congrArg State.fdState e⟩)
  case fdRx b =>
    obtain rfl := Host.Outcome.next.inj h
    rcases fdRx_fdState_cases Config.device b s with e | ⟨rfl, e⟩ | ⟨rfl, e⟩
    · exact .inl e
    · exact .inr (.inl ⟨.inr (.inl rfl), e⟩)
    · exact .inr (.inr ⟨.inr (.inr (.inl rfl)), e⟩)
  case cycle now rx =>
    cases hfd : t.fdState with
    | accumulating => exact .inr (.inl ⟨.inr (.inr ⟨now, rx, rfl⟩), rfl⟩)
    | listening => exact .inr (.inr ⟨.inr (.inr (.inr (.inl ⟨now, rx, rfl⟩))), rfl⟩)
  case init now => obtain rfl := Host.Outcome.next.inj h; exact .inr (.inr ⟨.inr (.inr (.inr (.inr ⟨now, rfl⟩))), rfl⟩)
  case fdData b => obtain rfl := Host.Outcome.next.inj h; exact .inl (fdData_fdState b s)
  case dispatch => obtain rfl := Host.Outcome.next.inj h; exact .inl (dispatch_fdState _ s)
  case chMask c => obtain rfl := Host.Outcome.next.inj h; exact .inl (chMask_fdState _ c s)
  case reqOn ch => obtain rfl := Host.Outcome.next.inj h; exact .inl (reqOn_fdState _ ch s)
  case pollExp => obtain rfl := Host.Outcome.next.inj h; exact .inl (pollExp_fdState _ s)
  case nvRd off =>
    simp only [exec, execNvRd] at h
    split at h <;> cases h
    exact .inl rfl
  case nvWr off v =>
    simp only [exec, execNvWr] at h
    split at h <;> cases h
    exact .inl rfl
  all_goals obtain rfl := Host.Outcome.next.inj h; exact .inl rfl

/-- Settles O51: a transition is no keeping of `FD_STATE`, and its end tells opening from closing. -/
theorem decoderStateChangesOnlyByThree : Obligations.DecoderStateChangesOnlyByThree := by
  intro i s t h
  rcases exec_fdState_cases i s t h with hkept | ⟨hopens, hacc⟩ | ⟨hcloses, hlis⟩
  · refine ⟨fun hl ha => ?_, fun ha hl => ?_⟩
    · exact nomatch (hkept.trans hl).symm.trans ha
    · exact nomatch (hkept.trans ha).symm.trans hl
  · exact ⟨fun _ _ => hopens, fun _ hl => (nomatch hacc.symm.trans hl)⟩
  · exact ⟨fun _ ha => (nomatch hlis.symm.trans ha), fun _ _ => hcloses⟩

end Sys2Proof.Machine
end

section
/-! PROOFS. 41_hex_codec.md: the nibble of every character (R115), and the byte that two nibbles make (R116). -/

namespace Sys2Proof

open Machine

/-! ### One character -/

/-- The first range of R115; `hexNib_of_upper` and `hexNib_of_lower` are the other two. -/
theorem hexNib_of_decimal {c : Byte} (hlo : 0x30 ≤ c.toNat) (hhi : c.toNat ≤ 0x39) : hexNib c = (c - 0x30).setWidth 4 :=
  if_pos (by bv_omega)

/-- A byte outside the three ranges reads as 0, and never fails (R115, R117). -/
theorem hexNib_of_not_digit {c : Byte} (hdecimal : ¬(0x30 ≤ c.toNat ∧ c.toNat ≤ 0x39))
    (hupper : ¬(0x41 ≤ c.toNat ∧ c.toNat ≤ 0x46)) (hlower : ¬(0x61 ≤ c.toNat ∧ c.toNat ≤ 0x66)) : hexNib c = 0 := by
  rw [hexNib, if_neg (by bv_omega), if_neg (by bv_omega), if_neg (by bv_omega)]

/-- R115 in numbers: no range reaches 16, so its truncation to four bits loses nothing. -/
theorem hexNib_toNat (c : Byte) : (hexNib c).toNat =
    if 0x30 ≤ c.toNat ∧ c.toNat ≤ 0x39 then c.toNat - 0x30
    else if 0x41 ≤ c.toNat ∧ c.toNat ≤ 0x46 then c.toNat - 0x41 + 10
    else if 0x61 ≤ c.toNat ∧ c.toNat ≤ 0x66 then c.toNat - 0x61 + 10
    else 0 := by
  split_ifs with hdecimal hupper hlower
  · rw [hexNib_of_decimal hdecimal.1 hdecimal.2]
    bv_omega
  · rw [hexNib_of_upper hupper.1 hupper.2]
    bv_omega
  · rw [hexNib_of_lower hlower.1 hlower.2]
    bv_omega
  · rw [hexNib_of_not_digit hdecimal hupper hlower]
    rfl

theorem exec_hexNib (c : Byte) (s : State) : exec (.hexNib c) s = .next { s with ret := .nibble (hexNib c) } := rfl

/-- Settles O9. -/
theorem hexNibDecodesPermissively : Obligations.HexNibDecodesPermissively := fun c s =>
  ⟨hexNib c, exec_hexNib c s, hexNib_toNat c⟩

/-! ### Two characters -/

/-- R116 in numbers: two nibbles fill a byte without overflow, `16 * 15 + 15 = 255`. -/
theorem hexByte_toNat (c0 c1 : Byte) : (hexByte c0 c1).toNat = 16 * (hexNib c0).toNat + (hexNib c1).toNat := by
  have h0 : (hexNib c0).toNat < 16 := (hexNib c0).isLt
  have h1 : (hexNib c1).toNat < 16 := (hexNib c1).isLt
  rw [hexByte]
  bv_omega

theorem exec_hexByte (c0 c1 : Byte) (s : State) : exec (.hexByte c0 c1) s = .next { s with ret := .byte (hexByte c0 c1) } := rfl

/-- Settles O10. -/
theorem hexByteJoinsTwoNibbles : Obligations.HexByteJoinsTwoNibbles := fun c0 c1 s =>
  ⟨hexNib c0, hexNib c1, hexByte c0 c1, exec_hexNib c0 s, exec_hexNib c1 s, exec_hexByte c0 c1 s, hexByte_toNat c0 c1⟩

end Sys2Proof
end

section
/-! PROOFS. 42_dispatcher_relay.md: the decoded message and its routing (R120, R121), the wire commands (R122 to R125), the relay (R126),
and the device downstream (R127). -/

namespace Sys2Proof.Machine

/-! ### Relay -/

/-- RELAY and its frame (R126). -/
theorem exec_relay (s : State) :
    exec .relay s = .next { s with tx := s.tx ++ ([START_MARKER] ++ s.frame ++ Config.device.lineTerm) } := rfl

/-- A `LEN` past the buffer stands for all of it (log 10). -/
theorem frame_of_len_ge {s : State} (h : 32 ≤ s.len.toNat) : s.frame = s.buf.toList :=
  List.take_of_length_le (by rwa [Vector.length_toList])

/-- Settles O19. -/
theorem relayEmitsTheStoredFrame : Obligations.RelayEmitsTheStoredFrame := fun s _ => exec_relay s

/-- Settles O59. -/
theorem relayBeyondTheBufferEmitsAllOfIt : Obligations.RelayBeyondTheBufferEmitsAllOfIt := by
  intro s hlen
  rw [exec_relay, frame_of_len_ge hlen.le]

/-! ### Decode and routing -/

/-- MSGDEC and its message (R120). -/
theorem exec_msgDec (s : State) : exec .msgDec s = .next { s with ret := .message s.msgAddress s.msgCommand } := rfl

/-- Settles O12: the message is two reads by HEXBYTE, and neither reads `LEN`. -/
theorem msgDecReadsTheFirstFourBytes : Obligations.MsgDecReadsTheFirstFourBytes := fun s =>
  ⟨s.msgAddress, s.msgCommand, exec_hexByte _ _ s, exec_hexByte _ _ s, exec_msgDec s, fun n => exec_msgDec { s with len := n }⟩

/-- DISPATCH is the command that the message decodes to, then RELAY (R121). -/
theorem exec_dispatch_eq_runAll (s : State) :
    exec .dispatch s = runAll [decodeMessage Config.device.ownByte s.msgAddress s.msgCommand, .relay] s := by
  rw [runAll, exec_decodeMessage]
  rfl

/-- DISPATCH of a message whose command is known, by its row of R82. -/
theorem exec_dispatch_of_decodeMessage {s : State} {i : Instr}
    (hrow : decodeMessage Config.device.ownByte s.msgAddress s.msgCommand = i) : exec .dispatch s = runAll [i, .relay] s := by
  rw [exec_dispatch_eq_runAll, hrow]

/-- Settles O14. -/
theorem dispatchRunsTheSelectedCommandThenRelays : Obligations.DispatchRunsTheSelectedCommandThenRelays := fun s =>
  ⟨⟨_, rfl, (exec_dispatch_eq_runAll s).symm⟩, Config.device.ownByte_le, rfl⟩

/-- Settles O18: PASS leaves RELAY the state that it found. -/
theorem passChangesNothing : Obligations.PassChangesNothing := fun _ _ s =>
  ⟨rfl, fun hon hoff hown => exec_dispatch_of_decodeMessage (decodeMessage_other s.msgCommand hon hoff hown)⟩

/-! ### The configuration commands -/

/-- What each byte of the store reads as after a write-through of a flag and a value (R147, R148). -/
theorem nvByte_memWrite_memWrite {flag val : Nat} (hne : flag ≠ val) (hflag : flag < Config.device.nvSize) (a : Nat) (v w : Byte)
    {s : State} (h : Memory.wf Config.device s.nv = true) :
    ((s.memWrite Config.device flag v).memWrite Config.device val w).nvByte a =
      if a = flag then v else if a = val then w else s.nvByte a := by
  rw [nvByte_memWrite val a w _ (Memory.wf_write _ s.nv flag v h hflag), nvByte_memWrite flag a v s h]
  by_cases ha : a = flag
  · rw [if_neg (ha ▸ hne), if_pos ha, if_pos ha]
  · rw [if_neg ha, if_neg ha]

theorem cfgSaveOn_nvByte (command : Byte) {s : State} (h : Memory.wf Config.device s.nv = true) (a : Nat) :
    (cfgSaveOn Config.device command s).nvByte a =
      if a = 0 then Config.device.sentinel else if a = 1 then command else s.nvByte a :=
  nvByte_memWrite_memWrite (by decide) (Nat.lt_of_lt_of_le (by decide) (four_le_nvSize _)) a _ command h

theorem cfgSaveOff_nvByte (command : Byte) {s : State} (h : Memory.wf Config.device s.nv = true) (a : Nat) :
    (cfgSaveOff Config.device command s).nvByte a =
      if a = 2 then Config.device.sentinel else if a = 3 then command else s.nvByte a :=
  nvByte_memWrite_memWrite (by decide) (Nat.lt_of_lt_of_le (by decide) (four_le_nvSize _)) a _ command h

/-- Settles O15: SETON is a register write and CFGSAVE.ON. -/
theorem setOnSetsAndPersistsTheOnTime : Obligations.SetOnSetsAndPersistsTheOnTime := by
  intro command s hwf
  refine ⟨⟨_, rfl, rfl, scaleCfg_toNat command, ?bytes⟩, fun haddress => ?selects⟩
  case bytes => exact cfgSaveOn_nvByte command (s := s.setOnMs (scaleCfg command)) hwf
  case selects => exact exec_dispatch_of_decodeMessage (haddress ▸ decodeMessage_setOn _ s.msgCommand)

/-- Settles O16: SETOFF is a register write and CFGSAVE.OFF. -/
theorem setOffSetsAndPersistsTheOffTime : Obligations.SetOffSetsAndPersistsTheOffTime := by
  intro command s hwf
  refine ⟨⟨_, rfl, rfl, scaleCfg_toNat command, ?bytes⟩, fun haddress => ?selects⟩
  case bytes => exact cfgSaveOff_nvByte command (s := s.setOffMs (scaleCfg command)) hwf
  case selects => exact exec_dispatch_of_decodeMessage (haddress ▸ decodeMessage_setOff _ s.msgCommand)

/-! ### The request mask -/

/-- Settles O17, by what CHMASK does to each lane. -/
theorem chMaskRequestsTheMaskedChannels : Obligations.ChMaskRequestsTheMaskedChannels := fun command s =>
  ⟨⟨_, rfl, chMask_shape _ command s, chMask_lane command s⟩,
    fun haddress => exec_dispatch_of_decodeMessage (haddress ▸ decodeMessage_own _ s.msgCommand)⟩

theorem setChannel_comm {i j : Chan} (h : i ≠ j) (a b : Bool) (s : State) :
    (s.setChannel i a).setChannel j b = (s.setChannel j b).setChannel i a := by
  have hval : i.val ≠ j.val := Fin.val_ne_of_ne h
  simp only [State.setChannel, Vector.set_comm _ _ hval]

/-- The test of a request reads the lane of its own channel only (R139). -/
theorem requestAccepted_setChannel_of_ne (p : Params) {i j : Chan} (h : j ≠ i) (on : Bool) (s : State) :
    (s.setChannel i on).requestAccepted p j = s.requestAccepted p j := by
  have hon : (s.setChannel i on).chOn[j] = s.chOn[j] := by rw [getElem_setChannel_chOn, if_neg h]
  have ht : (s.setChannel i on).chT[j] = s.chT[j] := by rw [getElem_setChannel_chT, if_neg h]
  rw [State.requestAccepted, hon, ht]
  rfl

/-- A request is accepted or not whatever another channel's request before it did (R139). -/
theorem reqOn_reqOn_of_ne (p : Params) {i j : Chan} (h : j ≠ i) (s : State) :
    reqOn p j (reqOn p i s) = if s.requestAccepted p j then (reqOn p i s).setChannel j true else reqOn p i s := by
  have hsame : (reqOn p i s).requestAccepted p j = s.requestAccepted p j := by
    unfold reqOn
    split
    · exact requestAccepted_setChannel_of_ne p h true s
    · rfl
  rw [reqOn, hsame]

/-- Two requests may change places (R124). -/
theorem reqOn_comm (p : Params) (i j : Chan) (s : State) : reqOn p j (reqOn p i s) = reqOn p i (reqOn p j s) := by
  by_cases h : i = j
  · rw [h]
  · rw [reqOn_reqOn_of_ne p (Ne.symm h), reqOn_reqOn_of_ne p h, reqOn, reqOn]
    split <;> split
    · exact setChannel_comm h true true s
    all_goals rfl

/-- REQON of channel after channel. -/
theorem runAll_reqOn (l : List Chan) (s : State) :
    runAll (l.map .reqOn) s = .next (l.foldl (fun s i => reqOn Config.device i s) s) := by
  induction l generalizing s with
  | nil => rfl
  | cons i l ih => exact ih (reqOn Config.device i s)

/-- CHMASK is the requests of the mask's channels in ascending order (R124). -/
theorem chMask_eq_foldl_filter (p : Params) (command : Byte) (s : State) :
    chMask p command s = (channels.filter (requested command)).foldl (fun s i => reqOn p i s) s :=
  List.foldl_filter.symm

/-- Settles O24: requests commute, so their order may be permuted. -/
theorem requestOrderIsNotObservable : Obligations.RequestOrderIsNotObservable := by
  intro command s order hperm
  have hrequests : (order.filter (requested command)).Perm (channels.filter (requested command)) := hperm.filter _
  have hfold := hrequests.foldl_eq (f := fun s i => reqOn Config.device i s) (rcomm := ⟨fun s i j => reqOn_comm _ i j s⟩) s
  calc runAll ((order.filter (requested command)).map .reqOn) s
      = .next ((channels.filter (requested command)).foldl (fun s i => reqOn Config.device i s) s) := by rw [runAll_reqOn, hfold]
    _ = exec (.chMask command) s := by rw [← chMask_eq_foldl_filter]; rfl

/-! ### The device downstream -/

/-- A cycle that finds no frame in progress (R156). -/
theorem cycle_of_listening (p : Params) (now : Time) (rx : List Byte) {s : State} (hl : s.fdState = .listening) :
    cycle p now rx s = curMask (pollExp p (drain p rx (s.sample p now))) := by
  rw [cycle, fdTimeout_of_listening p (s := s.sample p now) hl]

/-- The bytes of a whole frame, while LISTENING, store and relay it (R77). -/
theorem drain_wireFrame_relayed (p : Params) {payload : List Byte} {s : State} (hl : s.fdState = .listening)
    (hno : END_MARKER ∉ payload) : Relayed p s payload (drain p (wireFrame payload) s) :=
  FrameDue.relayed (FrameDue.drain hno (by rw [List.append_nil]; exact frameDue_of_listening p payload hl))

/-- What a device emits for a frame, by its parameters (R126). -/
theorem cycle_wireFrame_tx (p : Params) (now : Time) {payload : List Byte} {s : State} (hl : s.fdState = .listening)
    (hno : END_MARKER ∉ payload) :
    (cycle p now (wireFrame payload) s).tx = s.tx ++ (wireFrame (payload.take 31) ++ p.lineTerm) := by
  rw [cycle_of_listening p now _ hl, curMask, State.setOutMask_tx, pollExp_tx]
  exact (drain_wireFrame_relayed p (s := s.sample p now) hl hno).tx_eq

/-- A second stamp at the same sample changes nothing. -/
theorem stampRx_of_stamped {s : State} (h : s.tLastRx = s.now) : s.stampRx = s :=
  congrArg (fun t => { s with tLastRx := t }) h.symm

/-- Bytes after a frame that open no other one only stamp again, with the cycle's one sample (R29, R89). -/
theorem drain_wireFrame_append (p : Params) {payload rest : List Byte} {s : State} (hl : s.fdState = .listening)
    (hno : END_MARKER ∉ payload) (hrest : START_MARKER ∉ rest) :
    drain p (wireFrame payload ++ rest) s = drain p (wireFrame payload) s := by
  rw [drain_append]
  by_cases hnil : rest = []
  · rw [hnil, drain_nil]
  · have hstamped : (drain p (wireFrame payload) s).tLastRx = (drain p (wireFrame payload) s).now := by
      rw [drain_tLastRx, if_neg (show wireFrame payload ≠ [] from List.cons_ne_nil _ _), (drain_keeps p _ s).1]
    rw [drain_of_listening p (drain_wireFrame_relayed p hl hno).listening hrest hnil, stampRx_of_stamped hstamped]

/-- Settles O43: what the first device emits is the stored frame and a terminator that opens no frame (R17). -/
theorem downstreamReceivesTheSameFrame : Obligations.DownstreamReceivesTheSameFrame := by
  intro p q nowA nowB a b payload ha hb hno
  have hno' : END_MARKER ∉ payload.take 31 := fun hmem => hno (List.mem_of_mem_take hmem)
  have hskipped : cycle q nowB (wireFrame (payload.take 31) ++ p.lineTerm) b = cycle q nowB (wireFrame (payload.take 31)) b := by
    rw [cycle_of_listening q nowB _ hb, cycle_of_listening q nowB _ hb,
      drain_wireFrame_append q (s := b.sample q nowB) hb hno' p.startMarker_notMem_lineTerm]
  refine ⟨wireFrame (payload.take 31) ++ p.lineTerm, cycle_wireFrame_tx p nowA ha hno, hskipped, _, ?_, rfl⟩
  rw [hskipped, cycle_wireFrame_tx q nowB hb hno', List.take_take, Nat.min_self]

end Sys2Proof.Machine
end

section
/-! PROOFS. 43_channel_timing.md: what each operation of the channel timing engine does to each lane and to `OUT_MASK` (R136 to R138), the
independence of the lanes (R139), and which operations turn a channel on or off (R128, R135). -/

namespace Sys2Proof.Machine

/-! ### One operation -/

/-- A request to a channel that is on changes nothing, not even its timestamp (R136). -/
theorem reqOn_of_on (p : Params) {i : Chan} {s : State} (h : s.chOn[i] = true) : reqOn p i s = s := by
  have hrefused : s.requestAccepted p i = false := by rw [State.requestAccepted, h]; rfl
  rw [reqOn, hrefused]
  rfl

/-- Settles O20, by what REQON does to each lane. -/
theorem reqOnIsGatedByTheDebounceWindow : Obligations.ReqOnIsGatedByTheDebounceWindow := fun i s =>
  ⟨⟨_, rfl, reqOn_shape _ i s, fun j => reqOn_lane i j s⟩, fun hon => congrArg Host.Outcome.next (reqOn_of_on _ hon)⟩

/-- Settles O21, by what POLLEXP does to each lane. -/
theorem pollExpTurnsOffTheOverdueChannels : Obligations.PollExpTurnsOffTheOverdueChannels := fun s =>
  ⟨_, rfl, pollExp_shape _ s, pollExp_lane s⟩

/-- Settles O22, by the bits of the mask. -/
theorem curMaskPacksTheChannels : Obligations.CurMaskPacksTheChannels := fun s =>
  ⟨maskOf s.chOn, rfl, maskOf_getLsbD s.chOn⟩

/-! ### Lanes -/

/-- Settles O23: what each operation does to a lane is said by that lane and by what all lanes share alone. -/
theorem channelLanesAreIndependent : Obligations.ChannelLanesAreIndependent := by
  intro i s u m n hon ht hnow honMs hoffMs hbit
  refine ⟨⟨_, _, rfl, rfl, ?chMask⟩, ⟨_, _, rfl, rfl, ?pollExp⟩, ⟨_, _, rfl, rfl, ?curMask⟩⟩
  case chMask =>
    have hlane := chMask_lane m s i
    rw [hbit, hon, ht, hnow, hoffMs, ← chMask_lane n u i] at hlane
    exact Prod.mk.inj hlane
  case pollExp =>
    have hlane := pollExp_lane s i
    rw [hon, ht, hnow, honMs, ← pollExp_lane u i] at hlane
    exact Prod.mk.inj hlane
  case curMask =>
    calc (maskOf s.chOn).getLsbD i.val
        = s.chOn[i] := maskOf_getLsbD s.chOn i
      _ = u.chOn[i] := hon
      _ = (maskOf u.chOn).getLsbD i.val := (maskOf_getLsbD u.chOn i).symm

/-! ### Which operations turn a channel on or off -/

/-- A lane that an operation sets where a test holds keeps its channel's bit, or the test held and the bit is the one set. -/
theorem lane_chOn_cases {test : Prop} [Decidable test] {on on' set : Bool} {t t' now : Time}
    (hlane : (on', t') = if test then (set, now) else (on, t)) : on' = on ∨ (test ∧ on' = set) := by
  split at hlane
  case isTrue htest => exact .inr ⟨htest, congrArg Prod.fst hlane⟩
  case isFalse => exact .inl (congrArg Prod.fst hlane)

/-- POLLEXP turns no channel on (R137). -/
theorem pollExp_chOn_cases (ch : Chan) (s : State) :
    (pollExp Config.device s).chOn[ch] = s.chOn[ch] ∨ (pollExp Config.device s).chOn[ch] = false :=
  (lane_chOn_cases (pollExp_lane s ch)).imp_right fun hexpired => hexpired.2

/-- REQON turns on no channel but its own, and none off (R136). -/
theorem reqOn_chOn_cases (i ch : Chan) (s : State) :
    (reqOn Config.device i s).chOn[ch] = s.chOn[ch] ∨ (ch = i ∧ (reqOn Config.device i s).chOn[ch] = true) :=
  (lane_chOn_cases (reqOn_lane i ch s)).imp_right fun ⟨haccepted, hon⟩ => ⟨haccepted.1, hon⟩

/-- CHMASK turns on no channel but those of its mask, and none off (R124, R128). -/
theorem chMask_chOn_cases (m : Byte) (ch : Chan) (s : State) :
    (chMask Config.device m s).chOn[ch] = s.chOn[ch] ∨
    (m.getLsbD ch.val = true ∧ (chMask Config.device m s).chOn[ch] = true) :=
  (lane_chOn_cases (chMask_lane m s ch)).imp_right fun ⟨haccepted, hon⟩ => ⟨haccepted.1, hon⟩

/-- DISPATCH turns no channel off (R128). -/
theorem dispatch_chOn_cases (ch : Chan) (s : State) :
    (dispatch Config.device s).chOn[ch] = s.chOn[ch] ∨ (dispatch Config.device s).chOn[ch] = true :=
  (dispatch_lane_cases ch s).imp (fun hsame => hsame.1) fun hcame => hcame.1.2.1

/-- A received byte turns no channel off, and one on only where it ends a frame (R100, R128). -/
theorem fdRx_chOn_cases (b : Byte) (ch : Chan) (s : State) :
    (fdRx Config.device b s).chOn[ch] = s.chOn[ch] ∨ (b = END_MARKER ∧ (fdRx Config.device b s).chOn[ch] = true) :=
  (fdRx_lane_cases ch b s).imp (fun hsame => hsame.1) fun ⟨hb, _, hcame, _⟩ => ⟨hb, hcame.2.1⟩

theorem fdData_chOn (b : Byte) (s : State) : (fdData b s).chOn = s.chOn := by
  unfold fdData
  split <;> rfl

/-- POLLEXP, the CYCLE that runs it (R156), and INIT (R157). -/
def turnsOff (i : Instr) : Prop := i = .pollExp ∨ (∃ now rx, i = .cycle now rx) ∨ ∃ now, i = .init now

/-- REQON of the channel and the operations that run it (R124, R121, R105, R100, R156). -/
def turnsOn (ch : Chan) (i : Instr) : Prop :=
  i = .reqOn ch ∨ (∃ m : Byte, i = .chMask m ∧ m.getLsbD ch.val = true) ∨ i = .dispatch ∨ i = .fdEnd ∨
  i = .fdRx END_MARKER ∨ ∃ now rx, i = .cycle now rx

/-- What an operation can do to a channel: nothing, or it turns it off, or it turns it on (R128, R135). -/
theorem exec_chOn_cases (i : Instr) (s t : State) (ch : Chan) (h : exec i s = .next t) :
    t.chOn[ch] = s.chOn[ch] ∨ (turnsOff i ∧ t.chOn[ch] = false) ∨ (turnsOn ch i ∧ t.chOn[ch] = true) := by
  cases i
  case pollExp =>
    obtain rfl := Host.Outcome.next.inj h
    exact (pollExp_chOn_cases ch s).imp_right fun hoff => .inl ⟨.inl rfl, hoff⟩
  case init now =>
    obtain rfl := Host.Outcome.next.inj h
    have hoff : (init Config.device now s).chOn[ch] = false := by rw [init_shape]; simp
    exact .inr (.inl ⟨.inr (.inr ⟨now, rfl⟩), hoff⟩)
  case cycle now rx =>
    cases hon : t.chOn[ch] with
    | false => exact .inr (.inl ⟨.inr (.inl ⟨now, rx, rfl⟩), rfl⟩)
    | true => exact .inr (.inr ⟨.inr (.inr (.inr (.inr (.inr ⟨now, rx, rfl⟩)))), rfl⟩)
  case reqOn j =>
    obtain rfl := Host.Outcome.next.inj h
    exact (reqOn_chOn_cases j ch s).imp_right fun ⟨hj, hon⟩ => .inr ⟨.inl (hj ▸ rfl), hon⟩
  case chMask m =>
    obtain rfl := Host.Outcome.next.inj h
    exact (chMask_chOn_cases m ch s).imp_right fun ⟨hbit, hon⟩ => .inr ⟨.inr (.inl ⟨m, rfl, hbit⟩), hon⟩
  case dispatch =>
    obtain rfl := Host.Outcome.next.inj h
    exact (dispatch_chOn_cases ch s).imp_right fun hon => .inr ⟨.inr (.inr (.inl rfl)), hon⟩
  case fdEnd =>
    obtain rfl := Host.Outcome.next.inj h
    exact (dispatch_chOn_cases ch s.endFrame).imp_right fun hon => .inr ⟨.inr (.inr (.inr (.inl rfl))), hon⟩
  case fdRx b =>
    obtain rfl := Host.Outcome.next.inj h
    exact (fdRx_chOn_cases b ch s).imp_right fun ⟨hb, hon⟩ => .inr ⟨.inr (.inr (.inr (.inr (.inl (hb ▸ rfl))))), hon⟩
  case fdTimeout => obtain rfl := Host.Outcome.next.inj h; exact .inl (fdTimeout_sameLane ch s).1
  case fdData b => obtain rfl := Host.Outcome.next.inj h; exact .inl (congrArg (·[ch]) (fdData_chOn b s))
  case nvRd | nvWr =>
    simp only [exec, execNvRd, execNvWr] at h
    split at h <;> cases h
    exact .inl rfl
  all_goals obtain rfl := Host.Outcome.next.inj h; exact .inl rfl

/-- Settles O50: a channel that changed was not kept, and what it is afterwards tells turning on from turning off. -/
theorem channelsChangeOnlyByTheirOwnOperations : Obligations.ChannelsChangeOnlyByTheirOwnOperations := by
  intro i s t ch h
  rcases exec_chOn_cases i s t ch h with hkept | ⟨hturns, hoff⟩ | ⟨hturns, hon⟩
  · refine ⟨fun hwas hoff => ?_, fun hwas hon => ?_⟩
    · exact nomatch (hkept.trans hwas).symm.trans hoff
    · exact nomatch (hkept.trans hwas).symm.trans hon
  · exact ⟨fun _ _ => hturns, fun _ hon => (nomatch hoff.symm.trans hon)⟩
  · exact ⟨fun _ hoff => (nomatch hon.symm.trans hoff), fun _ _ => hturns⟩

end Sys2Proof.Machine
end

section
/-! PROOFS. 44_config_store.md: the boot load (R146), the two write-throughs (R147, R148), and the round trip that they make over every
step (R149), with the bytes of the store that no step touches (R34). -/

namespace Sys2Proof.Machine

/-! ### One operation -/

/-- Settles O27: what CFGLOAD loads is what the configuration registers then match. -/
theorem cfgLoadTakesStoreOrDefault : Obligations.CfgLoadTakesStoreOrDefault := by
  intro s
  have hload := cfgLoad_configMatchesStore s
  exact ⟨cfgLoad Config.device s, rfl, rfl, hload.onMs_eq, hload.offMs_eq⟩

/-- Settles O28. -/
theorem cfgSaveOnWritesFlagAndValue : Obligations.CfgSaveOnWritesFlagAndValue := fun command s hwf =>
  ⟨cfgSaveOn Config.device command s, rfl, rfl, cfgSaveOn_nvByte command hwf⟩

/-- Settles O29. -/
theorem cfgSaveOffWritesFlagAndValue : Obligations.CfgSaveOffWritesFlagAndValue := fun command s hwf =>
  ⟨cfgSaveOff Config.device command s, rfl, rfl, cfgSaveOff_nvByte command hwf⟩

/-! ### The bytes of the store after a command and after INIT -/

theorem setOn_nvByte (command : Byte) {s : State} (h : Memory.wf Config.device s.nv = true) (a : Nat) :
    (setOn Config.device command s).nvByte a =
      if a = 0 then Config.device.sentinel else if a = 1 then command else s.nvByte a :=
  cfgSaveOn_nvByte command (s := s.setOnMs (scaleCfg command)) h a

theorem setOff_nvByte (command : Byte) {s : State} (h : Memory.wf Config.device s.nv = true) (a : Nat) :
    (setOff Config.device command s).nvByte a =
      if a = 2 then Config.device.sentinel else if a = 3 then command else s.nvByte a :=
  cfgSaveOff_nvByte command (s := s.setOffMs (scaleCfg command)) h a

/-- INIT does not write the store (R157). -/
@[simp] theorem init_nvByte (now : Time) (s : State) (a : Nat) : (init Config.device now s).nvByte a = s.nvByte a := rfl

/-! ### A boot after a command -/

/-- A boot with the on-time flag set loads the on-time that the store holds (R146). -/
theorem init_onMs_of_flag (now : Time) {s : State} (hflag : s.nvByte 0 = Config.device.sentinel) :
    (init Config.device now s).onMs.toNat = 10 * (s.nvByte 1).toNat := by
  rw [(init_configMatchesStore now s).onMs_eq, init_nvByte, init_nvByte, if_pos hflag]

/-- A boot with the off-time flag set loads the off-time that the store holds (R146). -/
theorem init_offMs_of_flag (now : Time) {s : State} (hflag : s.nvByte 2 = Config.device.sentinel) :
    (init Config.device now s).offMs.toNat = 10 * (s.nvByte 3).toNat := by
  rw [(init_configMatchesStore now s).offMs_eq, init_nvByte, init_nvByte, if_pos hflag]

/-- Settles O30: the command sets the flag and stores its byte, and the boot scales that byte as the command did. -/
theorem bootReloadsWhatWasSet : Obligations.BootReloadsWhatWasSet := by
  intro command now s hwf
  have hon : (init Config.device now (setOn Config.device command s)).onMs.toNat = 10 * command.toNat := by
    rw [init_onMs_of_flag now (setOn_nvByte command hwf 0), setOn_nvByte command hwf 1]
    rfl
  have hoff : (init Config.device now (setOff Config.device command s)).offMs.toNat = 10 * command.toNat := by
    rw [init_offMs_of_flag now (setOff_nvByte command hwf 2), setOff_nvByte command hwf 3]
    rfl
  have hscale := scaleCfg_toNat command
  exact ⟨⟨_, _, rfl, rfl, BitVec.eq_of_toNat_eq (hon.trans hscale.symm), hon⟩,
    ⟨_, _, rfl, rfl, BitVec.eq_of_toNat_eq (hoff.trans hscale.symm), hoff⟩⟩

/-! ### What a step can do to the configuration

Within a step only SETON, SETOFF and INIT write `ON_MS` and `OFF_MS`, and only the first two write the store. So a property of these
three alone is kept by every step as soon as those operations keep it. -/

/-- `t` has the configuration registers and the store of `s`. -/
structure SameConfig (s t : State) : Prop where
  onMs_eq : t.onMs = s.onMs
  offMs_eq : t.offMs = s.offMs
  nv_eq : t.nv = s.nv

theorem SameConfig.nvByte_eq {s t : State} (h : SameConfig s t) (a : Nat) : t.nvByte a = s.nvByte a :=
  congrArg (Memory.read Config.device · a) h.nv_eq

theorem sameConfig_chMask (p : Params) (command : Byte) (s : State) : SameConfig s (chMask p command s) :=
  ⟨chMask_onMs p command s, chMask_offMs p command s, chMask_nv p command s⟩

theorem sameConfig_pollExp (p : Params) (s : State) : SameConfig s (pollExp p s) :=
  ⟨pollExp_onMs p s, pollExp_offMs p s, pollExp_nv p s⟩

theorem sameConfig_curMask (s : State) : SameConfig s (curMask s) := ⟨rfl, rfl, rfl⟩

theorem sameConfig_fdTimeout (p : Params) (s : State) : SameConfig s (fdTimeout p s) := by
  rcases fdTimeout_cases p s with ⟨_, e⟩ | ⟨_, e⟩ <;> rw [e] <;> exact ⟨rfl, rfl, rfl⟩

theorem sameConfig_takeMove (s : State) : SameConfig s s.takeMove := by
  obtain ⟨_, _, e⟩ := takeMove_cases s
  rw [e]
  exact ⟨rfl, rfl, rfl⟩

theorem sameConfig_powerCycle (s : State) : SameConfig s s.powerCycle := ⟨rfl, rfl, rfl⟩

/-- A property of the configuration registers and the store alone that the operations which write them keep. -/
structure ConfigInvariant (P : State → Prop) : Prop where
  of_same : ∀ {s t : State}, P s → SameConfig s t → P t
  setOn : ∀ (command : Byte) {s : State}, P s → P (setOn Config.device command s)
  setOff : ∀ (command : Byte) {s : State}, P s → P (setOff Config.device command s)
  init : ∀ (now : Time) {s : State}, P s → P (init Config.device now s)

section
variable {P : State → Prop} {s : State}

theorem ConfigInvariant.route (hP : ConfigInvariant P) (a c : Byte) (h : P s) : P (route Config.device a c s) := by
  rcases route_cases Config.device a c s with ⟨_, e⟩ | ⟨_, e⟩ | ⟨_, e⟩ | ⟨_, _, _, e⟩ <;> rw [e]
  · exact hP.setOn c h
  · exact hP.setOff c h
  · exact hP.of_same h (sameConfig_chMask _ c s)
  · exact h

theorem ConfigInvariant.dispatch (hP : ConfigInvariant P) (h : P s) : P (dispatch Config.device s) :=
  hP.of_same (hP.route s.msgAddress s.msgCommand h) ⟨rfl, rfl, rfl⟩

/-- A received byte writes the configuration only by the frame that it ends (R100, R105). -/
theorem ConfigInvariant.fdRx (hP : ConfigInvariant P) (b : Byte) (h : P s) : P (fdRx Config.device b s) := by
  refine fdRx_ind P Config.device ?stamp ?start ?data ?fin b s h
  case stamp => exact fun _ h => hP.of_same h ⟨rfl, rfl, rfl⟩
  case start => exact fun _ h _ => hP.of_same h ⟨rfl, rfl, rfl⟩
  case data => exact fun _ _ h _ _ _ => hP.of_same h ⟨rfl, rfl, rfl⟩
  case fin => exact fun _ h _ => hP.dispatch (hP.of_same h ⟨rfl, rfl, rfl⟩)

theorem ConfigInvariant.cycle (hP : ConfigInvariant P) (now : Time) (rx : List Byte) (h : P s) :
    P (cycle Config.device now rx s) := by
  have hsampled : P (s.sample Config.device now) := hP.of_same h ⟨rfl, rfl, rfl⟩
  have htimeout := hP.of_same hsampled (sameConfig_fdTimeout Config.device _)
  have hdrained := drain_ind P Config.device (fun b _ h => hP.fdRx b h) rx _ htimeout
  have hpolled := hP.of_same hdrained (sameConfig_pollExp Config.device _)
  exact hP.of_same hpolled (sameConfig_curMask _)

/-- Both kinds of step keep it: a control cycle, and RESET followed by INIT (R155). -/
theorem ConfigInvariant.step (hP : ConfigInvariant P) (h : P s) : ∃ t : State, step s = .next t ∧ P t := by
  have htaken := hP.of_same h (sameConfig_takeMove s)
  rcases step_cases s with ⟨now, rx, _, e⟩ | ⟨now, _, e⟩
  · exact ⟨_, e, hP.cycle now rx htaken⟩
  · exact ⟨_, e, hP.init now (hP.of_same htaken (sameConfig_powerCycle _))⟩

end

/-! ### The registers and the store -/

/-- The configuration registers match a store in canonical form. -/
structure State.ConfigSaved (s : State) : Prop where
  nv_wf : Memory.wf Config.device s.nv = true
  matches_store : s.ConfigMatchesStore

/-- SETON sets the on-time in the register and in the store, and leaves the off-time in both (R122). -/
theorem State.ConfigSaved.setOn {s : State} (h : s.ConfigSaved) (command : Byte) :
    (setOn Config.device command s).ConfigSaved := by
  have hbyte := setOn_nvByte command h.nv_wf
  refine ⟨cfgSaveOn_wf _ command _ h.nv_wf, ?on, ?off⟩
  case on =>
    rw [hbyte 0, hbyte 1, if_pos (if_pos rfl)]
    exact scaleCfg_toNat command
  case off =>
    rw [hbyte 2, hbyte 3]
    exact h.matches_store.offMs_eq

/-- SETOFF sets the off-time in the register and in the store, and leaves the on-time in both (R123). -/
theorem State.ConfigSaved.setOff {s : State} (h : s.ConfigSaved) (command : Byte) :
    (setOff Config.device command s).ConfigSaved := by
  have hbyte := setOff_nvByte command h.nv_wf
  refine ⟨cfgSaveOff_wf _ command _ h.nv_wf, ?on, ?off⟩
  case on =>
    rw [hbyte 0, hbyte 1]
    exact h.matches_store.onMs_eq
  case off =>
    rw [hbyte 2, hbyte 3, if_pos (if_pos rfl)]
    exact scaleCfg_toNat command

theorem State.ConfigSaved.of_same {s t : State} (h : s.ConfigSaved) (hsame : SameConfig s t) : t.ConfigSaved where
  nv_wf := by rw [hsame.nv_eq, h.nv_wf]
  matches_store :=
    ⟨by simpa only [hsame.onMs_eq, hsame.nvByte_eq] using h.matches_store.onMs_eq,
      by simpa only [hsame.offMs_eq, hsame.nvByte_eq] using h.matches_store.offMs_eq⟩

theorem configSaved_invariant : ConfigInvariant State.ConfigSaved where
  of_same := State.ConfigSaved.of_same
  setOn command _ h := h.setOn command
  setOff command _ h := h.setOff command
  init now s h := ⟨h.nv_wf, init_configMatchesStore now s⟩

/-- Settles O46: a boot loads the registers from the store, and each command that writes one of them writes the store with it. -/
theorem stepKeepsConfigEqualToStore : Obligations.StepKeepsConfigEqualToStore := by
  intro s hinv hmatches
  obtain ⟨t, hstep, hsaved⟩ := configSaved_invariant.step ⟨hinv.nv_wf, hmatches⟩
  exact ⟨t, hstep, hsaved.matches_store⟩

/-! ### The flags and the upper bytes of the store -/

/-- From `s` to `t` no set flag of the store has been cleared, and no byte at offset 4 or above has changed. -/
structure FlagsKept (s t : State) : Prop where
  onFlag : s.nvByte 0 = Config.device.sentinel → t.nvByte 0 = Config.device.sentinel
  offFlag : s.nvByte 2 = Config.device.sentinel → t.nvByte 2 = Config.device.sentinel
  upper : ∀ a : Nat, 4 ≤ a → t.nvByte a = s.nvByte a

theorem FlagsKept.refl (s : State) : FlagsKept s s := ⟨id, id, fun _ _ => rfl⟩

theorem FlagsKept.trans {s t u : State} (h : FlagsKept s t) (h' : FlagsKept t u) : FlagsKept s u where
  onFlag := h'.onFlag ∘ h.onFlag
  offFlag := h'.offFlag ∘ h.offFlag
  upper a ha := (h'.upper a ha).trans (h.upper a ha)

theorem FlagsKept.of_nvByte_eq {s t : State} (h : ∀ a, t.nvByte a = s.nvByte a) : FlagsKept s t :=
  ⟨(h 0).trans, (h 2).trans, fun a _ => h a⟩

/-- SETON sets its own flag and writes below offset 4 (R122). -/
theorem flagsKept_setOn (command : Byte) {s : State} (h : Memory.wf Config.device s.nv = true) :
    FlagsKept s (setOn Config.device command s) where
  onFlag _ := setOn_nvByte command h 0
  offFlag := (setOn_nvByte command h 2).trans
  upper a ha := by rw [setOn_nvByte command h, if_neg (by omega), if_neg (by omega)]

/-- SETOFF sets its own flag and writes below offset 4 (R123). -/
theorem flagsKept_setOff (command : Byte) {s : State} (h : Memory.wf Config.device s.nv = true) :
    FlagsKept s (setOff Config.device command s) where
  onFlag := (setOff_nvByte command h 0).trans
  offFlag _ := setOff_nvByte command h 2
  upper a ha := by rw [setOff_nvByte command h, if_neg (by omega), if_neg (by omega)]

/-- The store of `t` is canonical and has kept its flags and upper bytes since `s`. -/
structure FlagsKeptSince (s t : State) : Prop where
  nv_wf : Memory.wf Config.device t.nv = true
  kept : FlagsKept s t

theorem flagsKeptSince_invariant (s : State) : ConfigInvariant (FlagsKeptSince s) where
  of_same h hsame := ⟨by rw [hsame.nv_eq, h.nv_wf], h.kept.trans (.of_nvByte_eq hsame.nvByte_eq)⟩
  setOn command _ h := ⟨cfgSaveOn_wf _ command _ h.nv_wf, h.kept.trans (flagsKept_setOn command h.nv_wf)⟩
  setOff command _ h := ⟨cfgSaveOff_wf _ command _ h.nv_wf, h.kept.trans (flagsKept_setOff command h.nv_wf)⟩
  init now t h := ⟨h.nv_wf, h.kept.trans (.of_nvByte_eq (init_nvByte now t))⟩

/-- Settles O48: the only writes of the store are those of SETON and SETOFF. -/
theorem stepNeverClearsAFlagNorTouchesUpperBytes : Obligations.StepNeverClearsAFlagNorTouchesUpperBytes := by
  intro s hwf
  obtain ⟨t, hstep, hsince⟩ := (flagsKeptSince_invariant s).step ⟨hwf, FlagsKept.refl s⟩
  exact ⟨t, hstep, hsince.kept.onFlag, hsince.kept.offFlag, hsince.kept.upper⟩

end Sys2Proof.Machine
end


section
/-! PROOFS. 45_control_cycle.md: the control cycle as the sequence of its operations (R156), INIT (R157), the two kinds of step (R155), and
the bound on how long a channel stays energized (R164). -/

namespace Sys2Proof.Machine

/-! ### The order of a cycle -/

theorem runAll_append_of_next {is : List Instr} {s t : State} (h : runAll is s = .next t) (js : List Instr) :
    runAll (is ++ js) s = runAll js t := by
  induction is generalizing s with
  | nil => cases h; rfl
  | cons i is ih =>
    simp only [List.cons_append, runAll] at h ⊢
    split at h
    case h_1 => exact ih h
    all_goals cases h

/-- What follows the bytes of a cycle, executed by itself: CURMASK also returns the mask that it pushes (R138; log 8). -/
theorem runAll_pollExp_curMask (s : State) : runAll [.pollExp, .curMask] s =
    .next { curMask (pollExp Config.device s) with ret := .mask (curMask (pollExp Config.device s)).outMask } := rfl

theorem fdTimeout_ret (p : Params) (s : State) : (fdTimeout p s).ret = s.ret := by
  rcases fdTimeout_cases p s with ⟨_, e⟩ | ⟨_, e⟩ <;> rw [e]

/-- A cycle executes no operation by itself, so it returns no value (log 8). -/
theorem cycle_ret (now : Time) (rx : List Byte) (s : State) : (cycle Config.device now rx s).ret = s.ret := by
  obtain ⟨-, -, -, -, -, hdrain⟩ := drain_keeps Config.device rx (fdTimeout Config.device { s with now := sampleOf now })
  rw [cycle_eq_of_received, curMask, State.setOutMask_ret, pollExp_ret, received, hdrain, fdTimeout_ret]

/-- Settles O31: the timeout and the bytes make the state before POLLEXP, and the other two operations make the cycle's of it. -/
theorem cycleIsItsOperationsInOrder : Obligations.CycleIsItsOperationsInOrder := by
  intro now rx s
  refine ⟨cycle Config.device now rx s, rfl, ?_, cycle_ret now rx s⟩
  calc runAll ([.fdTimeout] ++ rx.map .fdRx ++ [.pollExp, .curMask]) { s with now := sampleOf now }
      = runAll [.pollExp, .curMask] (received now rx s) := runAll_append_of_next (runAll_received now rx s) _
    _ = _ := by rw [runAll_pollExp_curMask, ← cycle_eq_of_received]

/-! ### INIT and the step -/

/-- INIT loads the configuration that CFGLOAD would load before it: neither reads what INIT sets (R146, R157). -/
theorem exec_cfgLoad_eq_init (now : Time) (s : State) : exec .cfgLoad s =
    .next { s with onMs := (init Config.device now s).onMs, offMs := (init Config.device now s).offMs } := rfl

/-- Settles O32. -/
theorem initSetsTheResetValues : Obligations.InitSetsTheResetValues := fun now s =>
  ⟨init Config.device now s, rfl, init_shape now s, exec_cfgLoad_eq_init now s⟩

/-- A step sees its environment's moves only through the next one and what is left once it has been taken. -/
theorem step_congr {s u : State} (hnext : s.nextMove = u.nextMove) (htake : s.takeMove = u.takeMove) : step s = step u := by
  rw [step, step, State.beforeStep, State.beforeStep, hnext, htake]

/-- A free move of the environment is taken as if it had been placed (R166). -/
theorem step_of_empty {s : State} (h : s.pending = []) :
    step s = step { s with pending := [Config.envMove s.envIndex], envIndex := s.envIndex + 1 } := by
  refine step_congr ((nextMove_of_empty h).trans (nextMove_of_pending rfl).symm) ?_
  rw [takeMove_of_empty h, takeMove_of_pending rfl, ← h]

/-- Settles O33: a placed cycle, a placed power cycle, and a free move. -/
theorem stepRunsTheDecodedMove : Obligations.StepRunsTheDecodedMove := by
  refine ⟨fun s now rx rest h => ⟨?_, step_of_cycle h⟩, fun s now rest h => ⟨?_, powerOnBuf s.boots, step_of_reset h⟩,
    fun s h => step_of_empty h⟩
  all_goals rw [nextMove_of_pending h]; rfl

/-! ### How long a channel stays energized -/

/-- A cycle on a channel that is on: its bytes leave the channel alone, so POLLEXP decides by the `ON_MS` that they leave (R137). -/
theorem cycle_lane_of_on (now : Time) (rx : List Byte) {s : State} {i : Chan} (hon : s.chOn[i] = true) :
    ((cycle Config.device now rx s).chOn[i], (cycle Config.device now rx s).chT[i]) =
      if elapsedMs now s.chT[i] > (cycle Config.device now rx s).onMs.toNat then (false, sampleOf now) else (true, s.chT[i]) := by
  have hlane := cycle_lane now rx s i
  rcases received_lane_cases now rx s i with ⟨hon', ht⟩ | ⟨hoff, _⟩
  · rw [hon', ht, hon] at hlane
    simpa only [true_and, cycle_onMs] using hlane
  · exact nomatch hoff.symm.trans hon

/-- Channel `i` is on, and came on at the true time `start` (R31). -/
structure OnSince (i : Chan) (start : Nat) (s : State) : Prop where
  on : s.chOn[i] = true
  stamp : s.chT[i] = sampleOf start

section
variable {i : Chan} {start now : Nat} {rx : List Byte} {v : CfgWord} {s : State}

/-- The cycle of a channel whose true time on fits the counter compares that time with `ON_MS` (R137, R200). -/
theorem OnSince.cycle_lane (h : OnSince i start s) (hv : (cycle Config.device now rx s).onMs = v) (hle : start ≤ now)
    (hfits : now - start < 2 ^ Config.device.timeW) :
    ((cycle Config.device now rx s).chOn[i], (cycle Config.device now rx s).chT[i]) =
      if now - start > v.toNat then (false, sampleOf now) else (true, sampleOf start) := by
  have hlane := cycle_lane_of_on now rx h.on
  rwa [hv, h.stamp, elapsedMs_sampleOf_right, elapsedMs_of_lt hle hfits] at hlane

/-- A cycle after the on-time turns the channel off. -/
theorem OnSince.cycle_off (h : OnSince i start s) (hv : (cycle Config.device now rx s).onMs = v) (hlate : start + v.toNat < now)
    (hfits : now - start < 2 ^ Config.device.timeW) : (cycle Config.device now rx s).chOn[i] = false := by
  have hle : start ≤ now := Nat.le_of_lt (Nat.lt_of_le_of_lt (Nat.le_add_right _ _) hlate)
  have hlane := h.cycle_lane hv hle hfits
  rw [if_pos (Nat.lt_sub_iff_add_lt'.2 hlate)] at hlane
  exact (Prod.mk.inj hlane).1

/-- A cycle within the on-time leaves the channel on, with its stamp. -/
theorem OnSince.cycle_on (h : OnSince i start s) (hv : (cycle Config.device now rx s).onMs = v) (hle : start ≤ now)
    (hearly : now ≤ start + v.toNat) : OnSince i start (cycle Config.device now rx s) := by
  have hwithin : now - start ≤ v.toNat := Nat.sub_le_iff_le_add'.2 hearly
  have hlane := h.cycle_lane hv hle (lt_timeMod _ (Nat.lt_of_le_of_lt hwithin v.isLt))
  rw [if_neg (Nat.not_lt.2 hwithin)] at hlane
  obtain ⟨hon, ht⟩ := Prod.mk.inj hlane
  exact ⟨hon, ht⟩

end

/-- `ON_MS` is `v` in `s` and after each of the next `n` steps. -/
def OnMsKept (v : CfgWord) (n : Nat) (s : State) : Prop := ∀ k, k ≤ n → ∀ t : State, Host.Core.run core k s = .next t → t.onMs = v

theorem OnMsKept.onMs_eq {v : CfgWord} {n : Nat} {s : State} (h : OnMsKept v n s) : s.onMs = v := h 0 (Nat.zero_le n) s rfl

theorem OnMsKept.step {v : CfgWord} {n : Nat} {s u : State} (h : OnMsKept v (n + 1) s) (hstep : step s = .next u) : OnMsKept v n u :=
  fun k hk t hrun => h (k + 1) (Nat.succ_le_succ hk) t ((run_of_step k s u hstep).trans hrun)

/-- The cycles of a channel that is still on at a cycle at `last`, within its on-time: the first one after the on-time comes at most `C`
later than one within it, and turns the channel off. -/
theorem run_expires {i : Chan} {start C : Nat} {v : CfgWord} (hfits : v.toNat + C < 2 ^ Config.device.timeW)
    (cycles : List (Nat × List Byte)) (last : Nat) (s : State) (hpending : s.pending = asMoves cycles) (hon : OnSince i start s)
    (hstart : start ≤ last) (hlast : last ≤ start + v.toNat)
    (hchain : (last :: cycles.map Prod.fst).IsChain fun a b => a ≤ b ∧ b ≤ a + C)
    (hlate : ∃ c ∈ cycles, start + v.toNat < c.1) (hkept : OnMsKept v cycles.length s) :
    ∃ k, ∃ h : k < cycles.length, cycles[k].1 ≤ start + v.toNat + C ∧
      ∃ t : State, Host.Core.run core (k + 1) s = .next t ∧ t.chOn[i] = false := by
  induction cycles generalizing last s with
  | nil => obtain ⟨_, hmem, _⟩ := hlate; cases hmem
  | cons c cycles ih =>
    obtain ⟨now, rx⟩ := c
    obtain ⟨⟨hmono, hgap⟩, hchain⟩ := List.isChain_cons_cons.1 hchain
    have hstep : step s = .next (cycle Config.device now rx { s with pending := asMoves cycles }) := step_of_cycle hpending
    have hon' : OnSince i start { s with pending := asMoves cycles } := ⟨hon.on, hon.stamp⟩
    have hkept' := hkept.step hstep
    have hv := hkept'.onMs_eq
    by_cases hnow : start + v.toNat < now
    · have hbound : now ≤ start + v.toNat + C := hgap.trans (Nat.add_le_add_right hlast C)
      have hoff := hon'.cycle_off hv hnow (by omega)
      exact ⟨0, Nat.succ_pos _, hbound, _, run_of_step 0 s _ hstep, hoff⟩
    · have hearly : now ≤ start + v.toNat := Nat.le_of_not_lt hnow
      have hstill := hon'.cycle_on hv (hstart.trans hmono) hearly
      have hlate' : ∃ c ∈ cycles, start + v.toNat < c.1 := ((List.exists_mem_cons_iff _ _ _).1 hlate).resolve_left hnow
      obtain ⟨k, hk, hbound, t, hrun, hoff⟩ :=
        ih now _ (cycle_pending now rx _) hstill (hstart.trans hmono) hearly hchain hlate' hkept'
      exact ⟨k + 1, Nat.succ_lt_succ hk, hbound, t, (run_of_step (k + 1) s _ hstep).trans hrun, hoff⟩

/-- Settles O53: the cycles are counted from `start`, when the on-time began. -/
theorem energizedChannelExpiresInTime : Obligations.EnergizedChannelExpiresInTime := by
  intro s i start C cycles hon ht hchain hfits hlate hkept
  exact run_expires hfits cycles start { s with pending := asMoves cycles } rfl ⟨hon, ht⟩ (Nat.le_refl _) (Nat.le_add_right _ _)
    hchain hlate hkept

end Sys2Proof.Machine
end

section
/-! PROOFS. 60_exceptions.md section 1 (R170), with D30: every step answers a next state, and the parameter sets that the model takes are
exactly the legal ones, because `RawParams.accept` is the partial inverse of `Params.written`. -/

namespace Sys2Proof.Machine

/-- Settles O35, for each of the two kinds of step (R155). -/
theorem everyStepAnswersNext : Obligations.EveryStepAnswersNext := by
  intro s
  rcases step_cases s with ⟨now, rx, _, hcycle⟩ | ⟨now, _, hinit⟩
  · exact ⟨_, hcycle⟩
  · exact ⟨_, hinit⟩

end Sys2Proof.Machine

namespace Sys2Proof

open Machine

/-! ### The numbers of the bytes of a line terminator -/

/-- `notStartIndex` is the partial inverse of `notStart`. -/
theorem notStartIndex_eq_some_iff {b : Byte} {k : Fin 255} : notStartIndex b = some k ↔ notStart k = b := by
  by_cases hmarker : b = START_MARKER
  · subst hmarker
    exact iff_of_false nofun (notStart_ne_startMarker k)
  · have hk := k.isLt
    have hb := b.isLt
    have hne : b.toNat ≠ START_MARKER.toNat := fun e => hmarker (BitVec.eq_of_toNat_eq e)
    have hstart : START_MARKER.toNat = 60 := rfl
    rw [notStartIndex, if_neg hmarker, ← BitVec.toNat_inj, notStart_toNat]
    split
    all_goals
      rw [Option.some.injEq, Fin.ext_iff, Fin.val_ofNat]
      split <;> omega

theorem exists_notStart_eq {b : Byte} (h : b ≠ START_MARKER) : ∃ k, notStart k = b := by
  have hsome : ∃ k, notStartIndex b = some k := by
    rw [notStartIndex, if_neg h]
    split <;> exact ⟨_, rfl⟩
  exact hsome.imp fun _ => notStartIndex_eq_some_iff.1

theorem map_notStart_of_notStartIndices {bs : List Byte} {ks : List (Fin 255)} (h : notStartIndices bs = some ks) :
    ks.map notStart = bs := by
  induction bs generalizing ks with
  | nil => cases h; rfl
  | cons b bs ih =>
    simp only [notStartIndices] at h
    split at h
    case h_1 k ks' hk hks =>
      cases h
      rw [List.map_cons, notStartIndex_eq_some_iff.1 hk, ih hks]
    case h_2 => cases h

theorem notStartIndices_map_notStart (ks : List (Fin 255)) : notStartIndices (ks.map notStart) = some ks := by
  induction ks with
  | nil => rfl
  | cons k ks ih => simp only [List.map_cons, notStartIndices, notStartIndex_eq_some_iff.2 rfl, ih]

/-- A line terminator is what `Params` can hold of one (R17). -/
theorem exists_lineTerm_eq {bs : List Byte} (hne : bs ≠ []) (hstart : START_MARKER ∉ bs) :
    ∃ k ks, (k :: ks).map notStart = bs := by
  have hrange : bs ∈ Set.range (List.map notStart) := by
    rw [Set.range_list_map]
    exact fun b hb => exists_notStart_eq fun e => hstart (e ▸ hb)
  obtain ⟨_ | ⟨k, ks⟩, hks⟩ := hrange
  · exact absurd hks.symm hne
  · exact ⟨k, ks, hks⟩

/-! ### Parameter sets as somebody writes them down -/

/-- The written form of a parameter set. -/
def Params.written (p : Params) : RawParams where
  ownAddr := p.ownAddr
  sentinel := p.sentinel
  defaultOnMs := p.defaultOnMs.toNat
  defaultOffMs := p.defaultOffMs.toNat
  timeW := p.timeW
  lineTerm := p.lineTerm
  nvSize := p.nvSize
  cycleMaxMs := p.cycleMaxMs

/-- A set is admitted only as one that is written so. -/
theorem Params.written_of_accept {r : RawParams} {fresh : Nat → Byte} {p : Params} (h : r.accept fresh = some p) : p.written = r := by
  unfold RawParams.accept at h
  split at h
  case isFalse => cases h
  case isTrue haddr =>
    split at h
    case isFalse => cases h
    case isTrue hfits =>
      obtain ⟨htimeW, hon, hoff, hnv⟩ := hfits
      split at h
      case h_2 => cases h
      case h_1 k ks hks =>
        cases h
        simp only [written, timeW, lineTerm, nvSize, map_notStart_of_notStartIndices hks, BitVec.toNat_ofNat,
          Nat.mod_eq_of_lt hon, Nat.mod_eq_of_lt hoff, Nat.add_sub_cancel' htimeW, Nat.sub_add_cancel hnv]

/-- What is written of a parameter set is admitted as that set. -/
theorem Params.accept_written (p : Params) : p.written.accept p.nvFresh = some p := by
  have hfits : CFG_W ≤ p.timeW ∧ p.defaultOnMs.toNat < 2 ^ CFG_W ∧ p.defaultOffMs.toNat < 2 ^ CFG_W ∧ 4 ≤ p.nvSize :=
    ⟨Nat.le_add_right _ _, p.defaultOnMs.isLt, p.defaultOffMs.isLt, four_le_nvSize p⟩
  have hline : notStartIndices p.lineTerm = some (p.lineTermHead :: p.lineTermTail) := notStartIndices_map_notStart _
  simp only [RawParams.accept, written, dif_pos p.ownAddr.isLt, if_pos hfits, hline]
  simp only [timeW, nvSize, Nat.add_sub_cancel_left, Nat.add_sub_cancel, BitVec.ofNat_toNat, BitVec.setWidth_eq]

/-- The legal sets, by the constraints on what is written (R12, R14, R15, R17, R18). -/
def RawParams.Legal (r : RawParams) : Prop :=
  r.ownAddr ≤ 253 ∧ 16 ≤ r.timeW ∧ r.defaultOnMs < 2 ^ 16 ∧ r.defaultOffMs < 2 ^ 16 ∧ r.lineTerm ≠ [] ∧
    START_MARKER ∉ r.lineTerm ∧ 4 ≤ r.nvSize

theorem Params.written_legal (p : Params) : p.written.Legal :=
  ⟨Nat.le_of_lt_succ p.ownAddr.isLt, Nat.le_add_right _ _, p.defaultOnMs.isLt, p.defaultOffMs.isLt, p.lineTerm_ne_nil,
    p.startMarker_notMem_lineTerm, four_le_nvSize p⟩

/-- A legal set is the written form of a parameter set, whatever its store holds at first. -/
theorem RawParams.Legal.exists_written {r : RawParams} (h : r.Legal) (fresh : Nat → Byte) :
    ∃ p : Params, p.written = r ∧ p.nvFresh = fresh := by
  obtain ⟨haddr, htimeW, hon, hoff, hne, hstart, hnv⟩ := h
  obtain ⟨k, ks, hline⟩ := exists_lineTerm_eq hne hstart
  obtain ⟨extra, htimeW⟩ := Nat.exists_eq_add_of_le htimeW
  obtain ⟨nvExtra, hnv⟩ := Nat.exists_eq_add_of_le' hnv
  cases r
  cases hline; cases htimeW; cases hnv
  exact ⟨⟨⟨_, Nat.lt_succ_of_le haddr⟩, _, ⟨⟨_, hon⟩⟩, ⟨⟨_, hoff⟩⟩, extra, k, ks, nvExtra, _, fresh⟩, rfl, rfl⟩

/-- D30: exactly the legal sets are admitted. -/
theorem RawParams.exists_accept_iff_legal (r : RawParams) (fresh : Nat → Byte) :
    (∃ p : Params, r.accept fresh = some p) ↔ r.Legal := by
  constructor
  · rintro ⟨p, haccept⟩
    exact Params.written_of_accept haccept ▸ p.written_legal
  · intro hlegal
    obtain ⟨p, rfl, rfl⟩ := hlegal.exists_written fresh
    exact ⟨p, p.accept_written⟩

/-- Settles O58: the values of the admitted set are those of its written form. -/
theorem illegalParameterSetsAreRefused : Obligations.IllegalParameterSetsAreRefused := by
  refine fun r fresh => ⟨r.exists_accept_iff_legal fresh, fun p haccept => ?_⟩
  obtain rfl := Params.written_of_accept haccept
  exact ⟨ownByte_toNat p, rfl, rfl, rfl, rfl, rfl, rfl, rfl⟩

end Sys2Proof
end

section
/-! PROOFS. 70_reset_and_hazards.md section 3: debounce after boot (R204). -/

namespace Sys2Proof.Machine

/-- A request that is refused changes nothing (R136). -/
theorem reqOn_of_refused {p : Params} {i : Chan} {s : State} (h : s.requestAccepted p i = false) : reqOn p i s = s :=
  if_neg (Bool.eq_false_iff.1 h)

/-- A mask whose requests are all refused changes nothing, whichever channels it names (R124). -/
theorem chMask_of_refused {p : Params} {s : State} (h : ∀ i, s.requestAccepted p i = false) (command : Byte) :
    chMask p command s = s := by
  rw [chMask_eq_foldl_filter]
  exact List.foldl_fixed' (fun i => reqOn_of_refused (h i)) _

/-- INIT stamps every channel with the boot time (R157). -/
theorem init_chT (boot : Time) (s : State) (i : Chan) : (init Config.device boot s).chT[i] = sampleOf boot := by
  rw [init_shape]
  simp

/-- A request within OFF_MS of the boot is refused: the window it is tested against began at the boot (R204). -/
theorem init_requestRefused {boot now : Time} {s : State}
    (h : elapsedMs now boot < (init Config.device boot s).offMs.toNat) (i : Chan) :
    ({ init Config.device boot s with now := now } : State).requestAccepted Config.device i = false := by
  refine Bool.eq_false_iff.2 fun haccepted => ?_
  obtain ⟨_, hwindow⟩ := (requestAccepted_iff _ i).1 haccepted
  have hstamp : elapsedMs now (init Config.device boot s).chT[i] = elapsedMs now boot := by
    rw [init_chT, elapsedMs_sampleOf_right]
  exact absurd (hstamp ▸ hwindow) (Nat.not_le_of_lt h)

/-- Settles O37: every request of the mask is refused. -/
theorem requestsAreDebouncedAfterBoot : Obligations.RequestsAreDebouncedAfterBoot := by
  intro boot now command s u hboot hearly
  obtain rfl := Host.Outcome.next.inj hboot
  exact congrArg Host.Outcome.next (chMask_of_refused (init_requestRefused hearly) command)

end Sys2Proof.Machine
end
